-- ==== Sys2Proof/Word.lean ====
section
/-! DEFINITION. The words of the Jenzio 3816 and fixed-size tables of them. -/

namespace Sys2Proof

/-- One byte. -/
abbrev Byte := BitVec 8

/-- A 32-bit number: a register, a sequence, group, commit or checkpoint number. -/
abbrev Word := BitVec 32

/-- A 36-bit byte address (00_scope, Conventions). -/
abbrev Addr := BitVec 36

/-- A line number: a 36-bit byte address divided by 32. -/
abbrev Line := BitVec 31

/-- One of the 8 masters of the request port. -/
abbrev Stream := Fin 8

/-- The number of a slot of the Slot Pool. -/
abbrev SlotId := Fin 256

/-- Entry `i` of a fixed-size table. -/
def getV {α : Type} {n : Nat} (v : Vector α n) (i : Fin n) : α := v[i.val]

/-- The table with entry `i` replaced. -/
def setV {α : Type} {n : Nat} (v : Vector α n) (i : Fin n) (x : α) : Vector α n := v.set i.val x i.isLt

/-- The table with `f` applied to every entry (through the list, so that it evaluates in the kernel). -/
def mapV {α β : Type} {n : Nat} (f : α → β) (v : Vector α n) : Vector β n :=
  ⟨(v.toList.map f).toArray, by simp⟩

/-- The streams in ascending order. -/
def allStreams : List Stream := [0, 1, 2, 3, 4, 5, 6, 7]

/-- The table of eight with `f` applied to each stream's entry. -/
def mapStreams {α β : Type} (f : Stream → α → β) (v : Vector α 8) : Vector β 8 :=
  ⟨(allStreams.map fun i => f i (getV v i)).toArray, by simp [allStreams]⟩

/-- `a` is later than `b`: (a − b) modulo 2^32 lies between 1 and 2^31 − 1 (00_scope, Wrapping numbers). -/
def later (a b : Word) : Bool := 1 ≤ (a - b).toNat && (a - b).toNat < 2 ^ 31

end Sys2Proof
end

