-- ==== Sys2Proof/Syntax.lean ====
section
/-! DEFINITION. The commands of the block, one constructor for each row of spec/opcode_table.json, and their operands. -/

namespace Sys2Proof

/-- The status a completion of the memory port carries (R136). -/
inductive MemStatus where
  | ok
  | error
  deriving DecidableEq, Repr

/-- What a request does (R43, R136): a READ of `length` bytes, or a WRITE of one byte after another, each present
(its enable present, with its data) or absent (its enable absent; such a byte carries no meaning). -/
inductive Op where
  | read (length : Nat)
  | write (bytes : List (Option Byte))
  deriving DecidableEq, Repr

/-- A request of the request port (R43). -/
structure Request where
  stream : Stream
  tag    : Fin 4
  addr   : Addr
  op     : Op
  deriving DecidableEq, Repr

/-- A completion of the memory port: OK with one byte for each byte of a READ (none for a WRITE), or error (R136). -/
inductive Completion where
  | ok (data : List Byte)
  | error
  deriving DecidableEq, Repr

/-- What one event of the management port's serial link can be (R175): a complete write frame to register `n`, or one event of
a frame clocked bit by bit: its select line asserted, one bit clocked in, its select line released. Read frames are clocked. -/
inductive FrameEvent where
  | write (n : BitVec 6)
  | select
  | clock
  | deselect
  deriving DecidableEq, Repr

/-- The commands: everything that happens to the part, each one event (95_what_each_step_holds). -/
inductive Instr where
  /-- The RESET pin is asserted (R147). -/
  | resetAssert
  /-- The RESET pin is released with these levels on ABASE[3:0] (R147). -/
  | resetRelease (abase : BitVec 4)
  /-- Power is lost (R161). -/
  | powerLoss
  /-- A master offers a request (R45). -/
  | requestTake (r : Request)
  /-- The next request of a stream is admitted (R46). -/
  | admission (s : Stream)
  /-- The held write of a stream is examined again (R67). -/
  | reExamination (s : Stream)
  /-- The timebase reaches the deadline of a stream's held write (R73). -/
  | holdExpiry (s : Stream)
  /-- The arbiter makes its grant (R140). -/
  | memoryGrant
  /-- The arbiter grants the Journal Writer's front record (R107). -/
  | recordIssue
  /-- The arbiter grants a merged home read (R37). -/
  | capture
  /-- The arbiter grants a pass-through request (R142). -/
  | passThroughGrant
  /-- The arbiter grants the Apply Engine's home write (R123). -/
  | homeWriteIssue
  /-- The arbiter grants the first half of a checkpoint's anchor (R131). -/
  | checkpointIssue
  /-- The arbiter grants another request of the Service Engine (R138). -/
  | serviceRequestGrant
  /-- The arbiter grants a rewrite of the failed list (R112). -/
  | rewriteIssue
  /-- An outstanding record completes OK (R109). -/
  | recordAcknowledgement
  /-- An outstanding record completes with an error (R110). -/
  | recordFailure
  /-- A rewrite completes (R112). -/
  | rewriteAcknowledgement (st : MemStatus)
  /-- The head of the commit pipeline starts to apply (R121). -/
  | startOfApply
  /-- A home write completes OK (R124). -/
  | homeWriteAcknowledgement
  /-- A home write completes with an error (R126). -/
  | applyFailure
  /-- An anchor's second half completes OK and the first half had (R132). -/
  | checkpointAcknowledgement
  /-- An anchor's second half completes with `second`, and one of the halves had an error (R133). -/
  | checkpointFailure (second : MemStatus)
  /-- A pass-through request completes (R142). -/
  | passThroughCompletion (c : Completion)
  /-- A merged read's home read completes (R38). -/
  | homeReadDataReturn (c : Completion)
  /-- A request completes during a drain (R144). -/
  | drainCompletion
  /-- A recovery read of an anchor completes (R149). -/
  | anchorReadCompletion (c : Completion)
  /-- A recovery read of the scan completes (R152). -/
  | scanReadCompletion (c : Completion)
  /-- A recovery read of the walk or of a collection completes (R153, R154). -/
  | walkReadCompletion (c : Completion)
  /-- A replay write completes (R155). -/
  | replayWriteCompletion (st : MemStatus)
  /-- A FORMAT anchor write completes (R172). -/
  | formatAnchorWriteCompletion (st : MemStatus)
  /-- A DIGEST read completes (R174). -/
  | digestReadCompletion (c : Completion)
  /-- Command code 1 is written to the command register (R167). -/
  | quiesce
  /-- Command code 2 is written to the command register (R170). -/
  | resume
  /-- Command code 3 is written to the command register (R168). -/
  | discardOpen
  /-- Command code 4 is written to the command register (R165). -/
  | clearFault
  /-- Command code 5 is written to the command register (R159). -/
  | restart
  /-- Command code 6 is written to the command register; its arguments stand in ARG0 and ARG1 (R171, R187). -/
  | format
  /-- Command code 7 is written to the command register; its arguments stand in ARG0 to ARG2 (R173, R187). -/
  | digest
  /-- Command code 8 is written to the command register (R178). -/
  | abortDigest
  /-- Command code 9 is written to the command register (R169). -/
  | stageFromActive
  /-- Another code is written to the command register (R177). -/
  | unknownCommand (code : Byte)
  /-- A complete read frame of EVENT0 (R180). -/
  | eventPop
  /-- A complete write frame to the INT enable register (R182). -/
  | intEnableWrite (value : Word)
  /-- A complete write frame to the event status register with lost-clear set (R181). -/
  | lostClear
  /-- A complete write frame to profile data word `w` (R176). -/
  | profileDataWrite (w : Fin 4) (value : Word)
  /-- A complete write frame to a register (R176), `value` its data, or one event of a frame clocked bit by bit (R175), bit 0 of
  `value` the bit that is clocked in: the only row that can carry these (log entry 9). -/
  | registerWrite (n : FrameEvent) (value : Word)
  /-- An anchor's first half completes (R133). -/
  | anchorFirstHalfCompletion (st : MemStatus)
  deriving DecidableEq, Repr

end Sys2Proof
end

