-- ==== Sys2Proof/Decode.lean ====
section
/-! DEFINITION. The command a word spells by the table's bits. No row of spec/opcode_table.json gives bits ("fields" is
empty in all 48), so no word spells a command. And what the bits of a management frame spell (R175, R187). -/

namespace Sys2Proof

/-- The command that the word `w` of `nbits` bits spells: none, for no row gives bits. -/
def decodeTableWord (_nbits _w : Nat) : Option Instr := none

/-! ### Management frames -/

/-- What the command byte of a frame says: read or write, and the register number (R175). -/
structure FrameHead where
  read   : Bool
  number : BitVec 6
  deriving DecidableEq, Repr

/-- The command byte (R175, R187): bit 7 is 1 for a read, bit 6 is ignored, bits 5 to 0 give the register number. -/
def frameHead (b : Byte) : FrameHead := { read := b.getLsbD 7, number := b.setWidth 6 }

/-- The number that bits spell, most significant first (R175). -/
def bitsNat (bits : List Bool) : Nat := bits.foldl (fun n b => 2 * n + b.toNat) 0

/-- The command byte of a frame whose bits these are: byte 0 (R175). -/
def frameCommand (bits : List Bool) : Byte := BitVec.ofNat 8 (bitsNat (bits.take 8))

/-- The data of a frame whose bits these are: bytes 1 to 4, most significant byte first (R175). -/
def frameData (bits : List Bool) : Word := BitVec.ofNat 32 (bitsNat ((bits.drop 8).take 32))

/-- The 40 bits of a complete frame with this head, bit 6 and data (R175, R187). -/
def frameBits (read ignored : Bool) (number : BitVec 6) (data : Word) : List Bool :=
  read :: ignored :: (List.range 6).map number.getMsbD ++ (List.range 32).map data.getMsbD

end Sys2Proof
end

