-- ==== Sys2Proof/Config.lean ====
section
/-! DEFINITION. What the spec leaves open to the implementation, as free values: constants with no body. -/

namespace Sys2Proof

/-- Two works of the Service Engine became ready in one event: "either may be presented first" (R138).
The n-th such tie is broken this way: true puts the checkpoint first. A free value: it has no body, so
nothing can be proved of it (log entry 8). -/
opaque Config.serviceTie : Nat → Bool

/-- What a read of the command register returns in bits 7 to 0: the register window names its field there and no rule gives
the value a read shows; its other bits are not named and read zero (R187). A free value (log entry 9). -/
opaque Config.commandRead : Nat → Byte

end Sys2Proof
end

