-- ==== Sys2Proof/Machine/Bytes.lean ====
section
/-! DEFINITION. Byte order, the CRC-32 of R103, and small list helpers. -/

namespace Sys2Proof.Machine

/-- The `n` bytes of a field, little-endian (00_scope, Byte order). -/
def leBytes (n v : Nat) : List Byte := (List.range n).map fun i => BitVec.ofNat 8 (v >>> (8 * i))

/-- The value of a little-endian field. -/
def leNat (bytes : List Byte) : Nat := bytes.foldr (fun b acc => b.toNat + 256 * acc) 0

/-- The field of `n` bytes at offset `at` of a record or anchor. -/
def field (bytes : List Byte) (offset n : Nat) : Nat := leNat ((bytes.drop offset).take n)

/-- `n` bytes that a layout does not use: written as zero (R185, R186). -/
def zeros (n : Nat) : List Byte := List.replicate n 0

/-- One bit of the reflected CRC-32 with polynomial 0x04C11DB7 (R103); 0xEDB88320 is its reflection. -/
def crcBit (c : Word) : Word := if c.getLsbD 0 then (c >>> 1) ^^^ 0xEDB88320#32 else c >>> 1

/-- One byte fed into the CRC register, least significant bit first (R103). -/
def crcByte (c : Word) (b : Byte) : Word :=
  crcBit (crcBit (crcBit (crcBit (crcBit (crcBit (crcBit (crcBit (c ^^^ b.setWidth 32))))))))

/-- The CRC register after these bytes, in ascending address order (R103). -/
def crcFeed (c : Word) (bytes : List Byte) : Word := bytes.foldl crcByte c

/-- The start value of the CRC register (R103). -/
def crcStart : Word := 0xFFFFFFFF#32

/-- The CRC-32 of R103: start value, the bytes, complement. -/
def crc32 (bytes : List Byte) : Word := ~~~ crcFeed crcStart bytes

/-- A newer version of the same bytes laid over an older one: each byte the newer one holds replaces the older (R14, R35). -/
def overlay (older newer : List (Option Byte)) : List (Option Byte) :=
  List.zipWith (fun o n => n <|> o) older newer

/-- A byte string with every enable present (R136). -/
def allPresent (bytes : List Byte) : List (Option Byte) := bytes.map some

/-- The 32 entries of a byte mask (bit i for byte i, R185). -/
def maskOf (cells : List (Option Byte)) : Word :=
  BitVec.ofNat 32 (cells.foldr (fun c acc => (if c.isSome then 1 else 0) + 2 * acc) 0)

/-- The data bytes of cells: zero where the mask entry is absent (R11, R104). -/
def dataOf (cells : List (Option Byte)) : List Byte := cells.map (·.getD 0)

/-- The cells of a mask and its data bytes (R185). -/
def cellsOf (mask : Word) (data : List Byte) : List (Option Byte) :=
  (List.range 32).map fun i => if mask.getLsbD i then some (data.getD i 0) else none

/-- A bit as a number. -/
def bit (b : Bool) : Nat := if b then 1 else 0

end Sys2Proof.Machine
end

