-- ==== Sys2Proof/Machine/State.lean ====
section
/-! DEFINITION. The state of the part as plain data, block by block as 00_scope lists them; the stops; the state after reset. -/

namespace Sys2Proof.Machine

/-! ### Names of the manual -/

/-- The engine states (R162). -/
inductive EngineState where
  | recovering
  | unformatted
  | online
  | quiescing
  | quiesced
  | faulted
  deriving DecidableEq, Repr

/-- The fault causes (R162). -/
inductive FaultCause where
  | journalWrite
  | applyWrite
  | checkpointWrite
  | recoveryRead
  | recoveryMismatch
  | replayWrite
  deriving DecidableEq, Repr

/-- The decline reasons (R61). -/
inductive DeclineReason where
  | journalArea
  | blockCrossing
  | writeDenied
  | streamOff
  | engineFault
  | holdExpired
  | conflictCycle
  | groupLimit
  | overflow
  | discarded
  | memoryError
  deriving DecidableEq, Repr

/-- The discard reasons (R18). -/
inductive DiscardReason where
  | cancel
  | groupLimit
  | overflow
  | management
  deriving DecidableEq, Repr

/-- The group states (R1). -/
inductive GroupState where
  | open
  | sealing
  | inDoubt
  | sealed
  | applying
  deriving DecidableEq, Repr

/-- The hold kinds (R65). -/
inductive HoldKind where
  | conflict
  | space
  | pipeline
  | quiesce
  deriving DecidableEq, Repr

/-- The known commands (R187). -/
inductive Command where
  | quiesce
  | resume
  | discardOpen
  | clearFault
  | restart
  | format
  | digest
  | abortDigest
  | stageFromActive
  deriving DecidableEq, Repr

/-- The command results (R187). -/
inductive Result where
  | done
  | running
  | wrongState
  | profileInvalid
  | stampReused
  | badArgument
  | journalArea
  | failed
  | aborted
  deriving DecidableEq, Repr

/-- The two anchor copies (R100). -/
inductive Copy where
  | a
  | b
  deriving DecidableEq, Repr

/-- The four requesters of the Memory Port (R138). -/
inductive Requester where
  | journalWriter
  | applyEngine
  | requestPath
  | serviceEngine
  deriving DecidableEq, Repr

/-! ### Profiles (R49 to R51) -/

/-- An entry of the region table (R50); the size is 2 to the power `sizeExp` (R186). -/
structure Region where
  enabled : Bool
  base    : Addr
  sizeExp : BitVec 6
  mask    : BitVec 8
  deriving DecidableEq, Repr

/-- An entry of the stream table (R51). The cancel word is optional: `cancelPresent` says whether it is there. -/
structure StreamEntry where
  enabled       : Bool
  commitWord    : Addr
  cancelPresent : Bool
  cancelWord    : Addr
  entryLimit    : BitVec 7
  deriving DecidableEq, Repr

/-- A profile (R49), with the field widths of the register window (R187). -/
structure Profile where
  regions     : Vector Region 6
  streams     : Vector StreamEntry 8
  holdLimit   : BitVec 16
  openReserve : BitVec 8
  deriving DecidableEq, Repr

/-! ### Request Port (R43 to R48) -/

/-- The status of a response, with its data or its reason (R44). -/
inductive Status where
  | ok (data : List Byte)
  | declined (reason : DeclineReason)
  | retracted
  deriving DecidableEq, Repr

/-- A response that leaves the request port (R44). -/
structure Response where
  stream : Stream
  tag    : Fin 4
  status : Status
  deriving DecidableEq, Repr

/-- The phase of the merged read an overlay buffer serves (R36). -/
inductive OverlayState where
  | waiting
  | captured
  | merged
  deriving DecidableEq, Repr

/-- An overlay buffer in use (R36). `cells` is 128 entries by offset in the block: the overlay byte where the overlay
mask is present. `result` is there in state MERGED. -/
structure Overlay where
  state  : OverlayState
  block  : Nat
  cells  : List (Option Byte)
  result : Option (List Byte)
  deriving DecidableEq, Repr

/-- How far a request has come (R46, R47). -/
inductive Phase where
  /-- taken and not yet admitted -/
  | waiting
  /-- held by the Hold Unit -/
  | held
  /-- passed through and handed to the Memory Port -/
  | passed
  /-- a merged read; its overlay buffer says how far -/
  | reading
  /-- a taken commit write whose response is withheld; the descriptor of its group -/
  | withheld (ref : Nat)
  /-- its response is ready -/
  | ready (status : Status)
  deriving DecidableEq, Repr

/-- A place of an admission queue in use (R46), with its overlay buffer (R36). -/
structure Place where
  index   : Fin 4
  request : Request
  phase   : Phase
  buffer  : Option Overlay
  deriving DecidableEq, Repr

/-- The admission queue of one stream, oldest first (R46). -/
structure StreamPort where
  places    : List Place
  nextIndex : Fin 4
  deriving DecidableEq, Repr

/-! ### Group Table, Slot Pool, Line Index, Hold Unit -/

/-- The withheld response of a sealed group: a stream and a tag (R1). -/
structure CommitResponse where
  stream : Stream
  tag    : Fin 4
  deriving DecidableEq, Repr

/-- A group descriptor in use (R1). `ref` is the model's own identity of the descriptor's contents (log entry 6). -/
structure Group where
  ref            : Nat
  number         : Word
  stream         : Stream
  state          : GroupState
  entries        : List SlotId
  recordCount    : Word
  firstRecord    : Option Word
  commitNumber   : Option Word
  commitResponse : Option CommitResponse
  deriving DecidableEq, Repr

/-- The Group Table (R1, R2), its pipeline descriptors in the order of the commit pipeline (R120), and the descriptor
a replay holds (R23). -/
structure GroupTable where
  opens     : Vector (Option Group) 8
  pipeline  : List Group
  replaying : Option Group
  nextGroup : Word
  nextRef   : Nat
  deriving DecidableEq, Repr

/-- A slot in use (R11). `cells` is the byte mask and the data bytes: 32 entries, present where the mask is. -/
structure Slot where
  line  : Line
  cells : List (Option Byte)
  group : Nat
  deriving DecidableEq, Repr

/-- The Slot Pool (R11, R12). -/
structure SlotPool where
  slots : Vector (Option Slot) 256
  free  : List SlotId
  deriving DecidableEq, Repr

/-- An entry of the Line Index (R24), its version list in the three parts of R25. -/
structure IndexEntry where
  line         : Line
  owner        : Option Stream
  sealedPart   : List SlotId
  unsealedPart : List SlotId
  openPart     : Option SlotId
  deriving DecidableEq, Repr

/-- A held-write record in use (R65). `due` counts the re-examinations it is owed (R67, log entry 7). -/
structure HeldWrite where
  place    : Fin 4
  kind     : HoldKind
  deadline : Option Nat
  waitSet  : List Stream
  due      : Nat
  deriving DecidableEq, Repr

/-! ### Journal Writer, Apply Engine, Checkpoint Logic -/

/-- The kind of a record, with the slot an ENTRY names (R104, R105). -/
inductive RecordKind where
  | entry (slot : SlotId)
  | commit
  | filler
  deriving DecidableEq, Repr

/-- A queued record: its kind and its group, no sequence number and no content (R105). -/
structure QueuedRecord where
  kind  : RecordKind
  group : Nat
  deriving DecidableEq, Repr

/-- An issued record, outstanding or failed (R107, R111). -/
structure IssuedRecord where
  seq   : Word
  kind  : RecordKind
  group : Nat
  deriving DecidableEq, Repr

/-- The current format (R101). -/
structure Format where
  code  : Byte
  stamp : Word
  deriving DecidableEq, Repr

/-- The Journal Writer (chapter 6). Its claims are computed (R114). -/
structure JournalWriter where
  queue       : List QueuedRecord
  outstanding : List IssuedRecord
  failed      : List IssuedRecord
  head        : Word
  liveTail    : Word
  nextCommit  : Word
  format      : Option Format
  deriving DecidableEq, Repr

/-- The Apply Engine's record (R122); `group` is the applying group's `ref`. -/
structure ApplyRecord where
  group       : Nat
  nextPos     : Nat
  outstanding : Nat
  acked       : Nat
  stopped     : Bool
  deriving DecidableEq, Repr

/-- The content of an anchor (R131, R186). -/
structure Anchor where
  stamp      : Word
  code       : Byte
  number     : Word
  tail       : Word
  through    : Word
  nextGroup  : Word
  nextCommit : Word
  profile    : Profile
  deriving DecidableEq, Repr

/-- A request of Engine Control for a checkpoint (R129). -/
inductive CheckpointRequest where
  | quiesce
  | resume
  | recovery
  deriving DecidableEq, Repr

/-- A checkpoint in flight (R129): the copy, the content, the request it answers, the status of its first half once
that has completed, and whether its second half has been granted. -/
structure Flight where
  copy          : Copy
  anchor        : Anchor
  answers       : Option CheckpointRequest
  first         : Option MemStatus
  secondGranted : Bool
  deriving DecidableEq, Repr

/-- The retained anchor of a failed checkpoint (R129, R133). -/
structure Retained where
  copy    : Copy
  anchor  : Anchor
  answers : Option CheckpointRequest
  deriving DecidableEq, Repr

/-- A rewrite of the retained anchor in progress (R133). `own`: it was issued by the CLEAR_FAULT that runs. -/
structure Rewrite where
  first         : Option MemStatus
  secondGranted : Bool
  own           : Bool
  deriving DecidableEq, Repr

/-- The Checkpoint Logic (R129). -/
structure CheckpointLogic where
  number         : Word
  lastCopy       : Option Copy
  durableTail    : Word
  retiredThrough : Word
  inFlight       : Option Flight
  pending        : Bool
  request        : Option CheckpointRequest
  retained       : Option Retained
  rewrite        : Option Rewrite
  deriving DecidableEq, Repr

/-! ### Memory Port -/

/-- A request on the memory port (R136). -/
structure MemRequest where
  addr : Addr
  op   : Op
  deriving DecidableEq, Repr

/-- What an outstanding request serves (R138, R139). -/
inductive Purpose where
  | record
  | rewrite
  | homeWrite
  | passThrough (stream : Stream) (place : Fin 4)
  | homeRead (stream : Stream) (place : Fin 4)
  | anchorHalf (second : Bool) (rewrite : Bool)
  | anchorRead
  | scanRead (seq : Word)
  | walkRead (seq : Word)
  | collectRead (seq : Word)
  | replayWrite
  | formatWrite
  | digestRead
  deriving DecidableEq, Repr

/-- An entry of the outstanding list (R139). `live` is no once its completion is to be ignored (R149, R152, R155,
R158, R172, R174). -/
structure MemEntry where
  purpose : Purpose
  request : MemRequest
  live    : Bool
  deriving DecidableEq, Repr

/-- An entry of the request-path queue (R138): the request it serves, whether it is a merged home read. -/
structure PathRequest where
  stream  : Stream
  place   : Fin 4
  merged  : Bool
  request : MemRequest
  deriving DecidableEq, Repr

/-- The Memory Port (chapter 8). -/
structure MemoryPort where
  outstanding : List MemEntry
  path        : List PathRequest
  pointer     : Requester
  draining    : Bool
  deriving DecidableEq, Repr

/-! ### Service Engine -/

/-- The phases of recovery (R148). -/
inductive RecoveryPhase where
  | anchors
  | scan
  | replay
  | close
  deriving DecidableEq, Repr

/-- The result of an anchor read (R148). -/
inductive AnchorRead where
  | ok (bytes : List Byte)
  | error
  deriving DecidableEq, Repr

/-- The recovery record (R148). -/
structure Recovery where
  phase          : Option RecoveryPhase
  anchorReads    : List AnchorRead
  chosen         : Option Copy
  tail           : Word
  through        : Word
  cursor         : Word
  scannedHead    : Option Word
  latestGroup    : Option Word
  latestCommit   : Option Word
  lastReplayed   : Option Word
  groupsReplayed : Word
  deriving DecidableEq, Repr

/-- The replay of one group in progress (R154, R155): the COMMIT's sequence number, stream byte and counts; the next
record of the collection; the matching records; the home writes granted and acknowledged. -/
structure Replay where
  seq        : Word
  stream     : Byte
  entryCount : Word
  slotCount  : Word
  cursor     : Word
  matched    : Nat
  writing    : Bool
  nextPos    : Nat
  acked      : Nat
  deriving DecidableEq, Repr

/-- A running FORMAT (R171, R172): its arguments, whether its checks have passed, and its anchor writes. -/
structure FormatWork where
  code    : Byte
  stamp   : Word
  checked : Bool
  granted : Nat
  acked   : Nat
  deriving DecidableEq, Repr

/-- The digest record (R174). -/
structure DigestRecord where
  crc       : Word
  start     : Nat
  next      : Nat
  stop      : Nat
  processed : Nat
  deriving DecidableEq, Repr

/-- The works of the Service Engine (R138). -/
inductive ServiceWork where
  | checkpoint
  | recovery
  | format
  | digest
  deriving DecidableEq, Repr

/-- The Service Engine. `readyOrder`: the works that have a ready request, in the order these became ready (R138). -/
structure ServiceEngine where
  recovery   : Recovery
  replay     : Option Replay
  format     : Option FormatWork
  digest     : Option DigestRecord
  readyOrder : List ServiceWork
  deriving DecidableEq, Repr

/-! ### Engine Control -/

/-- The step a running CLEAR_FAULT is in (R165). `own`: the rewrite in flight was issued by this command. `started`:
the new apply attempt has begun. -/
inductive ClearStep where
  | journal (own : Bool)
  | apply (started : Bool)
  | anchor
  deriving DecidableEq, Repr

/-- Engine Control's record (R162). `causes` holds each cause once, in the order of the codes. -/
structure EngineControl where
  state          : EngineState
  firstCause     : Option FaultCause
  causes         : List FaultCause
  returnState    : Option EngineState
  quiescePending : Bool
  staging        : Profile
  activation     : Option Profile
  clear          : Option ClearStep
  deriving DecidableEq, Repr

/-! ### Management Port -/

/-- The event records (R179). -/
inductive Event where
  | decline (stream : Stream) (addr : Addr) (reason : DeclineReason) (tag : Fin 4)
  | groupDiscarded (stream : Stream) (group : Word) (reason : DiscardReason)
  | fault (cause : FaultCause)
  | faultCleared (entered : EngineState)
  | recoveryDone (groups : Word)
  | state (entered : EngineState)
  | digestDone (crc : Word)
  | commandDone (code : Byte) (result : Result)
  deriving DecidableEq, Repr

/-- The result register (R177, R187). -/
structure ResultRegister where
  code    : Byte
  result  : Result
  item    : Byte
  test    : BitVec 4
  overrun : Bool
  deriving DecidableEq, Repr

/-- Words 1 to 3 of the record whose word 0 a read of EVENT0 has sampled (R180). -/
structure Captured where
  word1 : Word
  word2 : Word
  word3 : Word
  deriving DecidableEq, Repr

/-- A frame in progress (R175): the bits clocked in so far, oldest first and at most 40, the value a read frame sampled in
the event that completed its first byte, and the words captured with a sample of EVENT0, absent when the queue was empty
(R180). -/
structure Frame where
  bits     : List Bool
  sampled  : Option Word
  captured : Option Captured
  deriving DecidableEq, Repr

/-- The Management Port (chapter 11). `running` is the command slot: the running command, or none when IDLE.
`frame`: the frame in progress while the select line is asserted (log entry 9). -/
structure ManagementPort where
  args         : Vector Word 4
  intEnable    : BitVec 8
  selectActive : Bool
  selectItem   : BitVec 4
  running      : Option Command
  result       : ResultRegister
  events       : List Event
  lost         : BitVec 8
  latch1       : Word
  latch2       : Word
  latch3       : Word
  commits      : Word
  discards     : Word
  declines     : Word
  records      : Word
  digestResult : Word
  coveredBytes : Nat
  frame        : Option Frame
  deriving DecidableEq, Repr

/-! ### The whole part -/

/-- The RESET pin and the power (R147, R161). -/
inductive RunState where
  | running
  | inReset
  | powerOff
  deriving DecidableEq, Repr

/-- What the part put on its ports in the latest event (the model's own field, log entry 2): the responses that left the
request port, the request issued on the memory port, the word a whole read frame of EVENT0 shifted out, and the bit shifted
out in a clock of the management port, where a rule gives it. -/
structure Outputs where
  responses : List Response
  issued    : Option MemRequest
  shifted   : Option Word
  miso      : Option Bool := none
  deriving DecidableEq, Repr

/-- The state of the part, and the queue of waiting commands. -/
structure State where
  run       : RunState
  abase     : BitVec 4
  now       : Nat
  ports     : Vector StreamPort 8
  profile   : Option Profile
  groups    : GroupTable
  pool      : SlotPool
  index     : List IndexEntry
  holds     : Vector (Option HeldWrite) 8
  journal   : JournalWriter
  apply     : Option ApplyRecord
  ckpt      : CheckpointLogic
  mem       : MemoryPort
  service   : ServiceEngine
  engine    : EngineControl
  mgmt      : ManagementPort
  out       : Outputs
  freeCount : Nat
  pending   : List Instr
  deriving DecidableEq, Repr

/-- Why the model stops with a fault. -/
inductive Fault where
  /-- Raised by a completion of a live READ (or pass-through request) that is OK and whose data is not one byte for
  each byte of its request: the memory side carries exactly that (R136) and the part does not check it. Safe. -/
  | memoryPromiseBroken
  deriving DecidableEq, Repr

/-- Why the model refuses a command. -/
inductive Refusal where
  /-- The command has no meaning in the model yet; raised by `exec` alone. Safe. -/
  | notModelled (mnemonic : String)
  /-- Raised by REQUEST_TAKE of a request whose length is not 1 to 128: "no other length can reach the part" (R43). Safe. -/
  | noSuchRequest
  deriving DecidableEq, Repr

/-! ### Reset -/

/-- A disabled region with every field zero (R187). -/
def Region.disabled : Region := { enabled := false, base := 0, sizeExp := 0, mask := 0 }

/-- A disabled stream with every field zero (R187). -/
def StreamEntry.disabled : StreamEntry :=
  { enabled := false, commitWord := 0, cancelPresent := false, cancelWord := 0, entryLimit := 0 }

/-- The staging profile at cold reset: "zero in every field except the open reserve, which is 24" (R187). -/
def Profile.coldReset : Profile :=
  { regions := Vector.replicate 6 Region.disabled, streams := Vector.replicate 8 StreamEntry.disabled,
    holdLimit := 0, openReserve := 24 }

/-- The Group Table with every descriptor free and this next-group counter (R22). -/
def GroupTable.cleared (nextGroup : Word) : GroupTable :=
  { opens := Vector.replicate 8 none, pipeline := [], replaying := none, nextGroup := nextGroup, nextRef := 0 }

/-- The slot numbers 0 to 255, ascending. -/
def allSlots : List SlotId := List.finRange 256

/-- The Slot Pool with every slot free: 0 to 255 ascending from head to tail (R22). -/
def SlotPool.cleared : SlotPool := { slots := Vector.replicate 256 none, free := allSlots }

/-- The Journal Writer cleared, with this current format (R119). -/
def JournalWriter.cleared (format : Option Format) : JournalWriter :=
  { queue := [], outstanding := [], failed := [], head := 0, liveTail := 0, nextCommit := 1, format := format }

/-- The Checkpoint Logic at cold reset (R135). -/
def CheckpointLogic.coldReset : CheckpointLogic :=
  { number := 0, lastCopy := none, durableTail := 0, retiredThrough := 0, inFlight := none, pending := false,
    request := none, retained := none, rewrite := none }

/-- The empty recovery record, phase ANCHORS (R148). -/
def Recovery.empty : Recovery :=
  { phase := some .anchors, anchorReads := [], chosen := none, tail := 0, through := 0, cursor := 0, scannedHead := none,
    latestGroup := none, latestCommit := none, lastReplayed := none, groupsReplayed := 0 }

/-- The Memory Port idle: nothing outstanding, nothing queued, the pointer on the Service Engine (R146). -/
def MemoryPort.idle : MemoryPort := { outstanding := [], path := [], pointer := .serviceEngine, draining := false }

/-- Nothing on the ports. -/
def Outputs.none : Outputs := { responses := [], issued := Option.none, shifted := Option.none }

/-- The part right after the release of RESET with `abase` on the ABASE pins: "every block takes its cold-reset values,
as each block's chapter gives", the engine RECOVERING, phase ANCHORS begun (R147). -/
def State.coldReset (abase : BitVec 4) : State :=
  { run := .running
    abase := abase
    now := 0
    ports := Vector.replicate 8 { places := [], nextIndex := 0 }
    profile := none
    groups := GroupTable.cleared 1
    pool := SlotPool.cleared
    index := []
    holds := Vector.replicate 8 none
    journal := JournalWriter.cleared none
    apply := none
    ckpt := CheckpointLogic.coldReset
    mem := MemoryPort.idle
    service := { recovery := Recovery.empty, replay := none, format := none, digest := none, readyOrder := [.recovery] }
    engine := { state := .recovering, firstCause := none, causes := [], returnState := none, quiescePending := false,
                staging := Profile.coldReset, activation := none, clear := none }
    mgmt := { args := Vector.replicate 4 0, intEnable := 0, selectActive := false, selectItem := 0, running := none,
              result := { code := 0, result := .done, item := 0, test := 0, overrun := false },
              events := [], lost := 0, latch1 := 0, latch2 := 0, latch3 := 0,
              commits := 0, discards := 0, declines := 0, records := 0, digestResult := 0, coveredBytes := 0, frame := none }
    out := Outputs.none
    freeCount := 0
    pending := [] }

/-- The part right after reset (R147), with ABASE 0 (DESIGN CHOICE, log entry 3). -/
def State.reset : State := State.coldReset 0

end Sys2Proof.Machine
end

