-- ==== Sys2Proof/WellFormed.lean ====
section
/-! DEFINITION. Which command terms stand for something at the ports. -/

namespace Sys2Proof

/-- The number of bytes a request covers. -/
def Op.length : Op → Nat
  | .read n => n
  | .write bytes => bytes.length

/-- The length field encodes 1 to 128 (R43, R136). -/
def Op.wf (o : Op) : Bool := 1 ≤ o.length && o.length ≤ 128

/-- A request the link can carry (R43). -/
def Request.wf (r : Request) : Bool := r.op.wf

/-- A completion carries at most 128 bytes (R136). -/
def Completion.wf : Completion → Bool
  | .ok data => data.length ≤ 128
  | .error => true

/-- A code that is none of the nine known ones (R177, R187). -/
def unknownCode (code : Byte) : Bool := code = 0 || 9 < code.toNat

/-- A command that some event at the ports, pins or blocks can be. -/
def Instr.wf : Instr → Bool
  | .requestTake r => r.wf
  | .passThroughCompletion c => c.wf
  | .homeReadDataReturn c => c.wf
  | .anchorReadCompletion c => c.wf
  | .scanReadCompletion c => c.wf
  | .walkReadCompletion c => c.wf
  | .digestReadCompletion c => c.wf
  | .unknownCommand code => unknownCode code
  | .resetAssert | .resetRelease _ | .powerLoss | .admission _ | .reExamination _ | .holdExpiry _ | .memoryGrant
  | .recordIssue | .capture | .passThroughGrant | .homeWriteIssue | .checkpointIssue | .serviceRequestGrant
  | .rewriteIssue | .recordAcknowledgement | .recordFailure | .rewriteAcknowledgement _ | .startOfApply
  | .homeWriteAcknowledgement | .applyFailure | .checkpointAcknowledgement | .checkpointFailure _ | .drainCompletion
  | .replayWriteCompletion _ | .formatAnchorWriteCompletion _ | .quiesce | .resume | .discardOpen | .clearFault
  | .restart | .format | .digest | .abortDigest | .stageFromActive | .eventPop | .intEnableWrite _ | .lostClear
  | .profileDataWrite _ _ | .registerWrite _ _ | .anchorFirstHalfCompletion _ => true

/-- The commands of the pins and the power. -/
def Instr.isPin : Instr → Bool
  | .resetAssert | .resetRelease _ | .powerLoss => true
  | _ => false

end Sys2Proof
end

