-- ==== Sys2Proof/Machine/Operands.lean ====
section
/-! DEFINITION. The operands of requests: which bytes, lines and words a request touches, and where it lies (R43 to R60). -/

namespace Sys2Proof

/-- The address of a request's first byte. -/
def Request.first (r : Request) : Nat := r.addr.toNat

/-- The address just past a request's last byte. -/
def Request.stop (r : Request) : Nat := r.addr.toNat + r.op.length

/-- The enabled byte that a WRITE carries for byte address `a`, if any (R43). -/
def Request.byteAt (r : Request) (a : Nat) : Option Byte :=
  match r.op with
  | .read _ => none
  | .write bytes => if r.addr.toNat ≤ a then (bytes[a - r.addr.toNat]?).join else none

/-- Whether a WRITE has at least one enabled byte (R55). -/
def Request.hasEnabled (r : Request) : Bool :=
  match r.op with
  | .read _ => false
  | .write bytes => bytes.any (·.isSome)

/-- The cells a write brings to a line: its enabled bytes within the line (R13). -/
def Request.cells (r : Request) (l : Line) : List (Option Byte) :=
  (List.range 32).map fun i => r.byteAt (32 * l.toNat + i)

/-- The lines a request reaches, in ascending order. -/
def Request.lines (r : Request) : List Line :=
  (List.range' (r.addr.toNat / 32) ((r.addr.toNat + r.op.length - 1) / 32 + 1 - r.addr.toNat / 32)).map
    (BitVec.ofNat 31)

/-- The visited lines: those in which the write has an enabled byte, ascending (R13, R75). -/
def Request.visited (r : Request) : List Line :=
  (r.lines).filter fun l => (r.cells l).any (·.isSome)

/-- Whether an enabled byte of the write lies in the 8-byte word at `w` (R51, R56, R59). -/
def Request.touches (r : Request) (w : Addr) : Bool :=
  (List.range 8).any fun i => (r.byteAt (w.toNat + i)).isSome

/-- R53 test 4: the last byte lies in a later block than the first. -/
def Request.crossesBlock (r : Request) : Bool := 128 < r.addr.toNat % 128 + r.op.length

end Sys2Proof

namespace Sys2Proof.Machine

/-- The extent of a region (R50, R186). -/
def Region.size (g : Region) : Nat := 2 ^ g.sizeExp.toNat

/-- The byte address just past a region. -/
def Region.stop (g : Region) : Nat := g.base.toNat + g.size

/-- Whether a byte lies in a region (R50). -/
def Region.holds (g : Region) (a : Nat) : Bool := g.base.toNat ≤ a && a < g.stop

/-- The enabled region that holds a byte address: "a request lies in at most one" (R50). -/
def Profile.regionAt (p : Profile) (a : Nat) : Option Region :=
  p.regions.toList.find? fun g => g.enabled && g.holds a

/-- The cancel word of a stream entry, if it has one (R51). -/
def StreamEntry.cancel (e : StreamEntry) : Option Addr := if e.cancelPresent then some e.cancelWord else none

/-- The ring size N of a ring size code (R100); for a code above 8, which only a loaded anchor can bring, the same formula (log
entry 19). -/
def ringSize (code : Byte) : Nat := 1024 * 2 ^ code.toNat

/-- The journal base: ABASE × 4 GiB (R100). -/
def journalBase (abase : BitVec 4) : Nat := abase.toNat * 2 ^ 32

/-- The length of the journal area for ring size `n`: 4 KiB plus 64 × N (R52). -/
def journalLength (n : Nat) : Nat := 4096 + 64 * n

/-- The address of the ring position of a sequence number: position s mod N (R100, R102). -/
def recordAddress (abase : BitVec 4) (f : Format) (seq : Word) : Addr :=
  BitVec.ofNat 36 (journalBase abase + 4096 + 64 * (seq.toNat % ringSize f.code))

/-- The offset of an anchor copy in the anchor page (R100). -/
def Copy.offset : Copy → Nat
  | .a => 0
  | .b => 256

/-- The address of a half of an anchor copy (R100, R131). -/
def anchorAddress (abase : BitVec 4) (c : Copy) (second : Bool) : Addr :=
  BitVec.ofNat 36 (journalBase abase + c.offset + 128 * bit second)

/-- Whether a byte address lies in the journal area while it is in force (R52): no format, no area. -/
def State.inJournalArea (s : State) (a : Nat) : Bool :=
  match s.journal.format with
  | none => false
  | some f => journalBase s.abase ≤ a && a < journalBase s.abase + journalLength (ringSize f.code)

/-- R53 test 5: any byte of the request lies in the journal area. -/
def State.touchesJournal (s : State) (r : Request) : Bool :=
  match s.journal.format with
  | none => false
  | some f => r.addr.toNat < journalBase s.abase + journalLength (ringSize f.code)
      && journalBase s.abase < r.addr.toNat + r.op.length

end Sys2Proof.Machine
end

