-- ==== Sys2Proof/Machine/Flags.lean ====
section
/-! DEFINITION. What is computed from the state: counts, the claims, INT, the codes of R187 and the register window as it
reads (R176, R183, R187). -/

namespace Sys2Proof.Machine

/-! ### Counts -/

/-- The open descriptors in use (R1). -/
def State.openCount (s : State) : Nat := s.groups.opens.toList.countP (·.isSome)

/-- The pipeline descriptors in use, a replay's among them (R1, R120). -/
def State.pipelineInUse (s : State) : Nat := s.groups.pipeline.length + bit s.groups.replaying.isSome

/-- The free slots (R11). -/
def State.freeSlots (s : State) : Nat := s.pool.free.length

/-- The claims: queued records plus OPEN groups (R114). -/
def State.claims (s : State) : Nat := s.journal.queue.length + s.openCount

/-- Whether no group exists in any state (R167). -/
def State.noGroup (s : State) : Bool :=
  s.openCount = 0 && s.groups.pipeline.isEmpty && s.groups.replaying.isNone

/-- The ring size of the current format; 0 without one. -/
def State.ringSize (s : State) : Nat :=
  match s.journal.format with
  | none => 0
  | some f => Machine.ringSize f.code

/-- The distance from the durable tail to the head (R113). -/
def State.distance (s : State) : Nat := (s.journal.head - s.ckpt.durableTail).toNat

/-- The requester of an outstanding request (R138, R139). -/
def Purpose.requester : Purpose → Requester
  | .record | .rewrite => .journalWriter
  | .homeWrite => .applyEngine
  | .passThrough _ _ | .homeRead _ _ => .requestPath
  | .anchorHalf _ _ | .anchorRead | .scanRead _ | .walkRead _ | .collectRead _ | .replayWrite | .formatWrite
  | .digestRead => .serviceEngine

/-- The outstanding count of a requester (R138). -/
def State.outstandingOf (s : State) (r : Requester) : Nat :=
  s.mem.outstanding.countP fun e => e.purpose.requester = r

/-- How many outstanding requests still wanted serve what `f` says. -/
def State.liveCount (s : State) (f : Purpose → Bool) : Nat :=
  s.mem.outstanding.countP fun e => e.live && f e.purpose

/-- The outstanding requests of a stream: its places in use (R45, R46). -/
def State.taken (s : State) (st : Stream) : Nat := (getV s.ports st).places.length

/-! ### Codes (R187) -/

def EngineState.code : EngineState → Nat
  | .recovering => 0
  | .unformatted => 1
  | .online => 2
  | .quiescing => 3
  | .quiesced => 4
  | .faulted => 5

def FaultCause.code : FaultCause → Nat
  | .journalWrite => 1
  | .applyWrite => 2
  | .checkpointWrite => 3
  | .recoveryRead => 4
  | .recoveryMismatch => 5
  | .replayWrite => 6

def Command.code : Command → Byte
  | .quiesce => 1
  | .resume => 2
  | .discardOpen => 3
  | .clearFault => 4
  | .restart => 5
  | .format => 6
  | .digest => 7
  | .abortDigest => 8
  | .stageFromActive => 9

def Result.code : Result → Nat
  | .done => 0
  | .running => 1
  | .wrongState => 2
  | .profileInvalid => 3
  | .stampReused => 4
  | .badArgument => 5
  | .journalArea => 6
  | .failed => 7
  | .aborted => 8

def DeclineReason.code : DeclineReason → Nat
  | .journalArea => 1
  | .blockCrossing => 2
  | .writeDenied => 3
  | .streamOff => 4
  | .engineFault => 5
  | .holdExpired => 6
  | .conflictCycle => 7
  | .groupLimit => 8
  | .overflow => 9
  | .discarded => 10
  | .memoryError => 11

def DiscardReason.code : DiscardReason → Nat
  | .cancel => 1
  | .groupLimit => 2
  | .overflow => 3
  | .management => 4

/-- The event kind codes, 1 to 8. -/
def Event.kind : Event → Nat
  | .decline _ _ _ _ => 1
  | .groupDiscarded _ _ _ => 2
  | .fault _ => 3
  | .faultCleared _ => 4
  | .recoveryDone _ => 5
  | .state _ => 6
  | .digestDone _ => 7
  | .commandDone _ _ => 8

/-- The six causes in the order of their codes. -/
def allCauses : List FaultCause :=
  [.journalWrite, .applyWrite, .checkpointWrite, .recoveryRead, .recoveryMismatch, .replayWrite]

/-- Whether a cause is ONLINE-side (R162). -/
def FaultCause.onlineSide : FaultCause → Bool
  | .journalWrite | .applyWrite | .checkpointWrite => true
  | .recoveryRead | .recoveryMismatch | .replayWrite => false

/-! ### INT (R182) -/

/-- Whether the kind of an event is enabled: bit k − 1 enables event kind k (R187). -/
def State.enabledKind (s : State) (e : Event) : Bool := s.mgmt.intEnable.getLsbD (e.kind - 1)

/-- INT: asserted while the queue holds at least one record whose kind is enabled (R182). -/
def State.intPin (s : State) : Bool := s.mgmt.events.any s.enabledKind

/-! ### Event words (R180, R187)

The fields a record does not have are absent (R179), and no rule says what the bits of an absent field read: here they read
zero, in EVENT0's stream, reason and address fields and in EVENT1 to EVENT3 (log entry 23). -/

/-- EVENT0 of a record: kind, stream and its presence bit, reason, address bits 35–32 and their presence bit; zero in the
fields the record does not have (log entry 23). -/
def Event.word0 (e : Event) : Word :=
  match e with
  | .decline st a r _ => BitVec.ofNat 32
      (1 + 2 ^ 4 * st.val + 2 ^ 7 + 2 ^ 8 * r.code + 2 ^ 24 * (a.toNat / 2 ^ 32) + 2 ^ 28)
  | .groupDiscarded st _ r => BitVec.ofNat 32 (2 + 2 ^ 4 * st.val + 2 ^ 7 + 2 ^ 8 * r.code)
  | .fault c => BitVec.ofNat 32 (3 + 2 ^ 8 * c.code)
  | .faultCleared _ => 4
  | .recoveryDone _ => 5
  | .state _ => 6
  | .digestDone _ => 7
  | .commandDone _ _ => 8

/-- EVENT1 of a record: the group number; zero in a record without one (log entry 23). -/
def Event.word1 : Event → Word
  | .groupDiscarded _ g _ => g
  | .decline _ _ _ _ | .fault _ | .faultCleared _ | .recoveryDone _ | .state _ | .digestDone _ | .commandDone _ _ => 0

/-- EVENT2 of a record: address bits 31–0; zero in a record without an address (log entry 23). -/
def Event.word2 : Event → Word
  | .decline _ a _ _ => a.setWidth 32
  | .groupDiscarded _ _ _ | .fault _ | .faultCleared _ | .recoveryDone _ | .state _ | .digestDone _
  | .commandDone _ _ => 0

/-- EVENT3 of a record: the value; zero in a record without one (log entry 23). -/
def Event.word3 : Event → Word
  | .decline _ _ _ t => BitVec.ofNat 32 t.val
  | .groupDiscarded _ _ _ | .fault _ => 0
  | .faultCleared st | .state st => BitVec.ofNat 32 st.code
  | .recoveryDone n => n
  | .digestDone c => c
  | .commandDone c r => BitVec.ofNat 32 (c.toNat + 2 ^ 8 * r.code)

/-- Words 1 to 3 of the oldest record, as a sample of EVENT0 captures them (R180). -/
def State.headWords (s : State) : Option Captured :=
  s.mgmt.events.head?.map fun e => { word1 := e.word1, word2 := e.word2, word3 := e.word3 }

/-! ### The profile data words (R187) -/

/-- The four data words of an item of a profile; item 15 shows zeros. -/
def Profile.word (p : Profile) (item : BitVec 4) (w : Fin 4) : Word :=
  let i := item.toNat
  if i = 0 then
    match w with
    | 0 => p.holdLimit.setWidth 32
    | 1 => p.openReserve.setWidth 32
    | _ => 0
  else if h : i - 1 < 6 then
    let g := getV p.regions ⟨i - 1, h⟩
    match w with
    | 0 => g.base.setWidth 32
    | 1 => BitVec.ofNat 32 (g.base.toNat / 2 ^ 32)
    | 2 => BitVec.ofNat 32 (g.sizeExp.toNat + 2 ^ 8 * bit g.enabled + 2 ^ 16 * g.mask.toNat)
    | _ => 0
  else if h : i - 7 < 8 then
    let e := getV p.streams ⟨i - 7, h⟩
    match w with
    | 0 => e.commitWord.setWidth 32
    | 1 => BitVec.ofNat 32 (e.commitWord.toNat / 2 ^ 32 + 2 ^ 16 * (e.cancelWord.toNat / 2 ^ 32))
    | 2 => e.cancelWord.setWidth 32
    | _ => BitVec.ofNat 32 (bit e.enabled + 2 * bit e.cancelPresent + 2 ^ 8 * e.entryLimit.toNat)
  else 0

/-- An address whose low 32 bits are replaced. -/
def lowWord (a : Addr) (v : Word) : Addr := BitVec.ofNat 36 (a.toNat / 2 ^ 32 * 2 ^ 32 + v.toNat)

/-- An address whose top 4 bits are replaced. -/
def highBits (a : Addr) (v : BitVec 4) : Addr := BitVec.ofNat 36 (v.toNat * 2 ^ 32 + a.toNat % 2 ^ 32)

/-- A region with a data word written: "a write to a data word stores every field that word holds" (R187). -/
def Region.store (g : Region) (w : Fin 4) (v : Word) : Region :=
  match w with
  | 0 => { g with base := lowWord g.base v }
  | 1 => { g with base := highBits g.base (v.setWidth 4) }
  | 2 => { g with sizeExp := v.setWidth 6, enabled := v.getLsbD 8, mask := (v >>> 16).setWidth 8 }
  | _ => g

/-- A stream entry with a data word written (R187). -/
def StreamEntry.store (e : StreamEntry) (w : Fin 4) (v : Word) : StreamEntry :=
  match w with
  | 0 => { e with commitWord := lowWord e.commitWord v }
  | 1 => { e with commitWord := highBits e.commitWord (v.setWidth 4),
                  cancelWord := highBits e.cancelWord ((v >>> 16).setWidth 4) }
  | 2 => { e with cancelWord := lowWord e.cancelWord v }
  | _ => { e with enabled := v.getLsbD 0, cancelPresent := v.getLsbD 1, entryLimit := (v >>> 8).setWidth 7 }

/-- A profile with a data word of an item written; writes to item 15 are ignored (R187). -/
def Profile.store (p : Profile) (item : BitVec 4) (w : Fin 4) (v : Word) : Profile :=
  let i := item.toNat
  if i = 0 then
    match w with
    | 0 => { p with holdLimit := v.setWidth 16 }
    | 1 => { p with openReserve := v.setWidth 8 }
    | _ => p
  else if h : i - 1 < 6 then
    { p with regions := setV p.regions ⟨i - 1, h⟩ ((getV p.regions ⟨i - 1, h⟩).store w v) }
  else if h : i - 7 < 8 then
    { p with streams := setV p.streams ⟨i - 7, h⟩ ((getV p.streams ⟨i - 7, h⟩).store w v) }
  else p

/-! ### The register window (R176, R183, R187) -/

/-- The engine register. -/
def State.engineRegister (s : State) : Word :=
  BitVec.ofNat 32 (s.engine.state.code + 2 ^ 4 * (s.engine.firstCause.elim 0 FaultCause.code)
    + (allCauses.filter (· ∈ s.engine.causes)).foldl (fun n c => n + 2 ^ (7 + c.code)) 0
    + 2 ^ 16 * bit s.engine.quiescePending + 2 ^ 17 * bit s.service.digest.isSome)

/-- The result register. -/
def ResultRegister.word (r : ResultRegister) : Word :=
  BitVec.ofNat 32 (r.code.toNat + 2 ^ 8 * r.result.code + 2 ^ 15 * bit r.overrun + 2 ^ 16 * r.item.toNat
    + 2 ^ 24 * r.test.toNat)

/-- The slot status register. -/
def State.slotStatus (s : State) : Word :=
  BitVec.ofNat 32 (s.freeSlots + 2 ^ 12 * s.openCount + 2 ^ 16 * s.pipelineInUse)

/-- The copy shown in the profile data words: staging or active (R176). The active profile that RESTART keeps until recovery loads
another (R49, R64, R159) is shown in RECOVERING too (log entry 26). -/
def State.shownProfile (s : State) : Option Profile :=
  if s.mgmt.selectActive then s.profile else some s.engine.staging

/-- A profile data word as it reads; zero with the active copy selected and none present (R176). -/
def State.profileData (s : State) (w : Fin 4) : Word :=
  match s.shownProfile with
  | none => 0
  | some p => p.word s.mgmt.selectItem w

/-- The value a register reads, as it stands at the sample (R176); an unused number reads zero. What the command
register shows in bits 7 to 0 no rule says: a free value (log entry 9). A read frame comes here in the event that completes its byte
0 (R175), which RESET shuts out. -/
def State.readRegister (s : State) (n : BitVec 6) : Word :=
  match n.toNat with
  | 0x00 => 0x38160101#32
  | 0x01 => s.engineRegister
  | 0x02 => (Config.commandRead s.freeCount).setWidth 32
  | 0x03 => getV s.mgmt.args 0
  | 0x04 => getV s.mgmt.args 1
  | 0x05 => getV s.mgmt.args 2
  | 0x06 => getV s.mgmt.args 3
  | 0x07 => s.mgmt.result.word
  | 0x08 => BitVec.ofNat 32 (s.mgmt.events.length + 2 ^ 8 * s.mgmt.lost.toNat)
  | 0x09 => match s.mgmt.events with
    | [] => 0
    | e :: _ => e.word0
  | 0x0A => s.mgmt.latch1
  | 0x0B => s.mgmt.latch2
  | 0x0C => s.mgmt.latch3
  | 0x0D => s.mgmt.intEnable.setWidth 32
  | 0x0E => s.slotStatus
  | 0x0F => s.journal.head
  | 0x10 => s.journal.liveTail
  | 0x11 => s.ckpt.durableTail
  | 0x12 => s.mgmt.commits
  | 0x13 => s.mgmt.discards
  | 0x14 => s.mgmt.declines
  | 0x15 => s.mgmt.records
  | 0x16 => BitVec.ofNat 32 (bit s.mgmt.selectActive + 2 ^ 4 * s.mgmt.selectItem.toNat)
  | 0x17 => s.profileData 0
  | 0x18 => s.profileData 1
  | 0x19 => s.profileData 2
  | 0x1A => s.profileData 3
  | 0x1B => s.mgmt.digestResult
  | 0x1C => BitVec.ofNat 32 (s.mgmt.coveredBytes / 32)
  | _ => 0

end Sys2Proof.Machine
end

