-- ==== Sys2Proof/Machine/Records.lean ====
section
/-! DEFINITION. The layouts of journal records (R185), anchors (R186) and the profile in them, written and read. -/

namespace Sys2Proof.Machine

/-- A record with its CRC: the first 60 bytes, then the CRC-32 of them, little-endian (R103, R185). -/
def sealRecord (body : List Byte) : List Byte := body ++ leBytes 4 (crc32 body).toNat

/-- The common first 12 bytes: kind, stream, zero, stamp, sequence number (R185). -/
def recordHeader (kind stream : Nat) (stamp seq : Word) : List Byte :=
  leBytes 1 kind ++ leBytes 1 stream ++ zeros 2 ++ leBytes 4 stamp.toNat ++ leBytes 4 seq.toNat

/-- An ENTRY record of a group, for a slot's line and cells (R104, R185). -/
def entryRecord (stamp seq : Word) (g : Group) (line : Line) (cells : List (Option Byte)) : List Byte :=
  sealRecord (recordHeader 1 g.stream.val stamp seq ++ leBytes 4 g.number.toNat ++ leBytes 4 line.toNat
    ++ leBytes 4 (maskOf cells).toNat ++ dataOf cells ++ zeros 4)

/-- A COMMIT record of a group with its commit number (R104, R108, R185). -/
def commitRecord (stamp seq : Word) (g : Group) (number : Word) : List Byte :=
  sealRecord (recordHeader 2 g.stream.val stamp seq ++ leBytes 4 g.number.toNat ++ leBytes 4 number.toNat
    ++ leBytes 4 g.recordCount.toNat ++ leBytes 4 g.entries.length ++ zeros 32)

/-- A FILLER record (R104, R112, R185). -/
def fillerRecord (stamp seq : Word) : List Byte := sealRecord (recordHeader 3 0 stamp seq ++ zeros 48)

/-- A valid record as recovery reads it (R104). The stream is the whole byte of the layout. -/
inductive Record where
  | entry (stream : Byte) (group : Word) (line : Line) (cells : List (Option Byte))
  | commit (stream : Byte) (group number entryCount slotCount : Word)
  | filler
  deriving DecidableEq, Repr

/-- The record in these 64 bytes, when it is valid for sequence number `seq` under `stamp`: the CRC, the kind, the stamp
and the sequence field (R152). -/
def readRecord (stamp seq : Word) (bytes : List Byte) : Option Record :=
  if leNat ((bytes.drop 60).take 4) = (crc32 (bytes.take 60)).toNat
      && field bytes 4 4 = stamp.toNat && field bytes 8 4 = seq.toNat then
    let w (o : Nat) : Word := BitVec.ofNat 32 (field bytes o 4)
    match field bytes 0 1 with
    | 1 => some (.entry (bytes.getD 1 0) (w 12) (BitVec.ofNat 31 (field bytes 16 4))
        (cellsOf (w 20) ((bytes.drop 24).take 32)))
    | 2 => some (.commit (bytes.getD 1 0) (w 12) (w 16) (w 20) (w 24))
    | 3 => some .filler
    | _ => none
  else none

/-- A region entry of an anchor, 8 bytes (R186). -/
def regionBytes (g : Region) : List Byte :=
  leBytes 5 g.base.toNat ++ leBytes 1 g.sizeExp.toNat ++ leBytes 1 (bit g.enabled) ++ leBytes 1 g.mask.toNat

/-- A stream entry of an anchor, 12 bytes (R186). -/
def streamBytes (e : StreamEntry) : List Byte :=
  leBytes 5 e.commitWord.toNat ++ leBytes 5 e.cancelWord.toNat ++ leBytes 1 (bit e.enabled + 2 * bit e.cancelPresent)
    ++ leBytes 1 e.entryLimit.toNat

/-- The profile in an anchor, offsets 40 to 187 (R186). -/
def profileBytes (p : Profile) : List Byte :=
  leBytes 2 p.holdLimit.toNat ++ leBytes 1 p.openReserve.toNat ++ zeros 1
    ++ p.regions.toList.flatMap regionBytes ++ p.streams.toList.flatMap streamBytes

/-- The first 252 bytes of an anchor (R186). -/
def anchorBody (a : Anchor) : List Byte :=
  leBytes 4 0x6A7A1C38 ++ leBytes 4 1 ++ leBytes 4 a.stamp.toNat ++ leBytes 1 a.code.toNat ++ zeros 3
    ++ leBytes 4 a.number.toNat ++ leBytes 4 a.tail.toNat ++ leBytes 4 a.through.toNat
    ++ leBytes 4 a.nextGroup.toNat ++ leBytes 4 a.nextCommit.toNat ++ zeros 4 ++ profileBytes a.profile ++ zeros 64

/-- The 256 bytes of an anchor (R186). -/
def anchorBytes (a : Anchor) : List Byte := anchorBody a ++ leBytes 4 (crc32 (anchorBody a)).toNat

/-- A half of an anchor: bytes 0 to 127 first, 128 to 255 second (R131). -/
def anchorHalf (a : Anchor) (second : Bool) : List Byte := ((anchorBytes a).drop (128 * bit second)).take 128

/-- A region read from its 8 bytes (R186). -/
def readRegion (b : List Byte) : Region :=
  { enabled := (b.getD 6 0).getLsbD 0, base := BitVec.ofNat 36 (field b 0 5),
    sizeExp := BitVec.ofNat 6 (field b 5 1), mask := b.getD 7 0 }

/-- A stream entry read from its 12 bytes (R186). -/
def readStream (b : List Byte) : StreamEntry :=
  { enabled := (b.getD 10 0).getLsbD 0, commitWord := BitVec.ofNat 36 (field b 0 5),
    cancelPresent := (b.getD 10 0).getLsbD 1, cancelWord := BitVec.ofNat 36 (field b 5 5),
    entryLimit := BitVec.ofNat 7 (field b 11 1) }

/-- The region table in an anchor's bytes, from offset 44 (R186). -/
def readRegions (b : List Byte) : Vector Region 6 :=
  let g (i : Nat) := readRegion (b.drop (44 + 8 * i))
  ⟨#[g 0, g 1, g 2, g 3, g 4, g 5], rfl⟩

/-- The stream table in an anchor's bytes, from offset 92 (R186). -/
def readStreams (b : List Byte) : Vector StreamEntry 8 :=
  let e (i : Nat) := readStream (b.drop (92 + 12 * i))
  ⟨#[e 0, e 1, e 2, e 3, e 4, e 5, e 6, e 7], rfl⟩

/-- The anchor in these 256 bytes, when the copy is valid: magic, version, stamp not zero, CRC (R150). A ring size code above 8,
which R101 does not give, is no test of R150: the whole byte is loaded (log entry 19). -/
def readAnchor (b : List Byte) : Option Anchor :=
  if field b 0 4 = 0x6A7A1C38 && field b 4 4 = 1 && field b 8 4 ≠ 0
      && field b 252 4 = (crc32 (b.take 252)).toNat then
    let w (o : Nat) : Word := BitVec.ofNat 32 (field b o 4)
    some { stamp := w 8, code := b.getD 12 0, number := w 16, tail := w 20, through := w 24, nextGroup := w 28,
           nextCommit := w 32,
           profile := { regions := readRegions b, streams := readStreams b,
                        holdLimit := BitVec.ofNat 16 (field b 40 2), openReserve := b.getD 42 0 } }
  else none

end Sys2Proof.Machine
end

