-- ==== Sys2Proof/Machine/Ready.lean ====
section
/-! DEFINITION. Which requests stand ready at the Memory Port (R106, R112, R123, R138), and the arbiter's choice among the
requesters (R140, R141). -/

namespace Sys2Proof.Machine

/-! ### Groups by their descriptor -/

/-- The groups in the Group Table: open descriptors in stream order, then the commit pipeline. -/
def GroupTable.all (t : GroupTable) : List Group := t.opens.toList.filterMap id ++ t.pipeline

/-- The group whose descriptor is `ref`, if it still exists. -/
def State.findGroup (s : State) (ref : Nat) : Option Group := s.groups.all.find? fun g => g.ref = ref

/-- The contents of a slot. -/
def State.slot (s : State) (id : SlotId) : Option Slot := getV s.pool.slots id

/-! ### Journal Writer -/

/-- Conditions 1 to 5 of R106 for the record at the front of the queue. -/
def State.recordReady (s : State) : Bool :=
  match s.journal.queue with
  | [] => false
  | q :: _ => (s.engine.state = .online || s.engine.state = .quiescing) && s.journal.failed.isEmpty
      && s.journal.outstanding.length < 8 && (q.kind != .commit || s.journal.outstanding.isEmpty)

/-- Whether a rewrite is in flight (R112: one at a time). -/
def State.rewriteInFlight (s : State) : Bool := s.mem.outstanding.any fun e => e.purpose = .rewrite

/-- The journal step of CLEAR_FAULT presents the front of the failed list once the outstanding list is empty (R112). -/
def State.rewriteReady (s : State) : Bool :=
  (match s.engine.clear with
    | some (.journal _) => true
    | _ => false)
  && s.journal.outstanding.isEmpty && !s.journal.failed.isEmpty && !s.rewriteInFlight

/-! ### Apply Engine -/

/-- The number of slots of the applying group. -/
def State.applyLength (s : State) (a : ApplyRecord) : Nat :=
  match s.findGroup a.group with
  | none => 0
  | some g => g.entries.length

/-- The conditions of R123. While APPLY_WRITE is in the cause set, only the apply step of CLEAR_FAULT issues (R164, R166). -/
def State.applyReady (s : State) : Bool :=
  match s.apply with
  | none => false
  | some a => !a.stopped && a.nextPos < s.applyLength a && a.outstanding < 4 && s.engine.state != .recovering
      && (!s.engine.causes.contains .applyWrite || s.engine.clear == some (.apply true))

/-! ### Service Engine -/

/-- Issue of a checkpoint is permitted in RECOVERING, ONLINE, QUIESCING and QUIESCED, not while FORMAT runs and not
between the taking of RESTART and the start of recovery (R130). -/
def State.checkpointPermitted (s : State) : Bool :=
  (s.engine.state = .recovering || s.engine.state = .online || s.engine.state = .quiescing
    || s.engine.state = .quiesced)
  && s.mgmt.running != some .format && !s.mem.draining

/-- What the Checkpoint Logic presents through the Service Engine's place. -/
inductive CheckpointTurn where
  | first
  | second
  | rewriteFirst
  | rewriteSecond
  deriving DecidableEq, Repr

/-- The anchor half the Checkpoint Logic presents (R131, R133): the second half as soon as the first has been granted; the
rewrite of the retained anchor in the anchor step of CLEAR_FAULT; else a wanted checkpoint, when none is in flight. While the
second half of the rewrite of a CLEAR_FAULT that has ended is outstanding, a later CLEAR_FAULT in its anchor step presents
no first half (log entry 12). -/
def State.checkpointTurn (s : State) : Option CheckpointTurn :=
  match s.ckpt.inFlight, s.ckpt.rewrite with
  | some f, _ => if f.secondGranted then none else some .second
  | none, some w => if w.secondGranted || !w.own || s.ckpt.retained.isNone then none else some .rewriteSecond
  | none, none =>
    if s.engine.clear = some .anchor && s.ckpt.retained.isSome then some .rewriteFirst
    else if s.ckpt.pending && s.checkpointPermitted then some .first else none

/-- A record read of recovery (R152). -/
def State.recordRead (s : State) (seq : Word) : MemRequest :=
  { addr := recordAddress s.abase (s.journal.format.getD ⟨0, 0⟩) seq, op := .read 64 }

/-- "Up to 8 of its reads outstanding at a time" (R152). -/
def State.readRoom (s : State) : Bool := s.outstandingOf .serviceEngine < 8

/-- A home write of a slot: line × 32, 32 bytes, the mask as enables, the data (R123, R155). -/
def homeWrite (x : Slot) : MemRequest := { addr := BitVec.ofNat 36 (32 * x.line.toNat), op := .write x.cells }

/-- A slot with nothing in it; what an entry list names is always in use, so this stands for no state of the part. -/
def Slot.blank : Slot := { line := 0, cells := List.replicate 32 none, group := 0 }

/-- The home write of the slot `id`. -/
def State.homeWriteOf (s : State) (id : SlotId) : MemRequest := homeWrite ((s.slot id).getD Slot.blank)

/-- How many live outstanding requests serve the anchor reads. -/
def Purpose.isAnchorRead : Purpose → Bool
  | .anchorRead => true
  | _ => false

def Purpose.isScanRead : Purpose → Bool
  | .scanRead _ => true
  | _ => false

def Purpose.isWalkRead : Purpose → Bool
  | .walkRead _ => true
  | _ => false

def Purpose.isCollectRead : Purpose → Bool
  | .collectRead _ => true
  | _ => false

def Purpose.isReplayWrite : Purpose → Bool
  | .replayWrite => true
  | _ => false

def Purpose.isDigestRead : Purpose → Bool
  | .digestRead => true
  | _ => false

/-- The anchor reads still to be presented (R149): the four halves in order, each as soon as the one before is granted. -/
def State.anchorReadRequest (s : State) : Option (Purpose × MemRequest) :=
  let i := s.service.recovery.anchorReads.length + s.liveCount Purpose.isAnchorRead
  if i < 4 then some (.anchorRead, { addr := BitVec.ofNat 36 (journalBase s.abase + 128 * i), op := .read 128 }) else none

/-- The next scan read (R152): ascending from the cursor, never at T + N or beyond. -/
def State.scanReadRequest (s : State) : Option (Purpose × MemRequest) :=
  let r := s.service.recovery
  let next := r.cursor + BitVec.ofNat 32 (s.liveCount Purpose.isScanRead)
  if (next - r.tail).toNat < s.ringSize && s.readRoom then some (.scanRead next, s.recordRead next) else none

/-- The next walk read (R153): ascending from the cursor to H − 1. -/
def State.walkReadRequest (s : State) : Option (Purpose × MemRequest) :=
  let r := s.service.recovery
  let next := r.cursor + BitVec.ofNat 32 (s.liveCount Purpose.isWalkRead)
  if (next - r.tail).toNat < (r.scannedHead.getD r.tail - r.tail).toNat && s.readRoom then
    some (.walkRead next, s.recordRead next) else none

/-- The next request of a replay (R154, R155): collection reads from T to c − 1, with the limit of 8 that R152 gives the scan
(log entry 18), then the home writes, up to 4 outstanding, each with its slot's mask as R155 says, where R136 says all present
(log entry 24). -/
def State.replayRequest (s : State) (p : Replay) : Option (Purpose × MemRequest) :=
  let r := s.service.recovery
  if p.writing then
    match (s.groups.replaying.elim [] Group.entries)[p.nextPos]? with
    | none => none
    | some id => if s.liveCount Purpose.isReplayWrite < 4 then some (.replayWrite, s.homeWriteOf id) else none
  else
    let next := p.cursor + BitVec.ofNat 32 (s.liveCount Purpose.isCollectRead)
    if (next - r.tail).toNat < (p.seq - r.tail).toNat && s.readRoom then
      some (.collectRead next, s.recordRead next) else none

/-- The request recovery presents (R149, R152 to R155); a recovery stopped by RESTART presents none (R144). -/
def State.recoveryRequest (s : State) : Option (Purpose × MemRequest) :=
  if s.engine.state = .recovering && !s.mem.draining then
    match s.service.recovery.phase with
    | some .anchors => s.anchorReadRequest
    | some .scan => s.scanReadRequest
    | some .replay => match s.service.replay with
      | none => s.walkReadRequest
      | some p => s.replayRequest p
    | some .close => none
    | none => none
  else none

/-- The anchor FORMAT writes: B with checkpoint number 1, then A with 2 (R172). -/
def State.formatAnchor (s : State) (w : FormatWork) (c : Copy) : Anchor :=
  { stamp := w.stamp, code := w.code, number := match c with
      | .b => 1
      | .a => 2
    tail := 0, through := 0, nextGroup := 1, nextCommit := 1,
    profile := s.engine.activation.getD Profile.coldReset }

/-- The copy and half of the n-th FORMAT write: B lower, B upper, A lower, A upper (R172). -/
def formatHalf (n : Nat) : Copy × Bool :=
  match n with
  | 0 => (.b, false)
  | 1 => (.b, true)
  | 2 => (.a, false)
  | _ => (.a, true)

/-- The write FORMAT presents (R172): the first only once the request-path queue is empty, those of anchor A only after
both halves of B have been acknowledged. -/
def State.formatRequest (s : State) : Option (Purpose × MemRequest) :=
  match s.service.format with
  | none => none
  | some w =>
    if w.checked && s.mem.path.isEmpty && w.granted < 4 && (w.granted < 2 || 2 ≤ w.acked) then
      let (c, second) := formatHalf w.granted
      some (.formatWrite, { addr := anchorAddress s.abase c second,
                            op := .write (allPresent (anchorHalf (s.formatAnchor w c) second)) })
    else none

/-- Where the read of a digest at `a` ends: the end of its block or the clamped end (R174). -/
def digestStop (a stop : Nat) : Nat := min (a / 128 * 128 + 128) stop

/-- The read DIGEST presents, up to 8 outstanding (R174); ignored reads of an earlier DIGEST do not count (log entry 25). -/
def State.digestRequest (s : State) : Option (Purpose × MemRequest) :=
  match s.service.digest with
  | none => none
  | some d =>
    if d.next < d.stop && s.liveCount Purpose.isDigestRead < 8 then
      some (.digestRead, { addr := BitVec.ofNat 36 d.next, op := .read (digestStop d.next d.stop - d.next) })
    else none

/-- Whether a work of the Service Engine has a ready request (R138). -/
def State.workReady (s : State) : ServiceWork → Bool
  | .checkpoint => s.checkpointTurn.isSome
  | .recovery => s.recoveryRequest.isSome
  | .format => s.formatRequest.isSome
  | .digest => s.digestRequest.isSome

/-- The work whose ready request the Service Engine presents: the one that became ready first (R138). -/
def State.presentedWork (s : State) : Option ServiceWork := s.service.readyOrder.find? s.workReady

/-! ### The arbiter -/

/-- Whether a requester has a ready request (R138). -/
def State.ready (s : State) : Requester → Bool
  | .journalWriter => s.recordReady || s.rewriteReady
  | .applyEngine => s.applyReady
  | .requestPath => !s.mem.path.isEmpty
  | .serviceEngine => s.presentedWork.isSome

/-- Whether a requester's outstanding count is below its limit (R138); the total limit is the arbiter's (R140). -/
def State.belowLimit (s : State) : Requester → Bool
  | .journalWriter => s.outstandingOf .journalWriter < 8
  | .applyEngine => s.outstandingOf .applyEngine < 4
  | .requestPath => true
  | .serviceEngine => true

/-- R140: a ready request while the count is below its limit. -/
def State.eligible (s : State) (r : Requester) : Bool := s.ready r && s.belowLimit r

/-- The requesters in rotation order, from the one that follows the pointer (R140). -/
def rotationAfter : Requester → List Requester
  | .journalWriter => [.applyEngine, .requestPath, .serviceEngine, .journalWriter]
  | .applyEngine => [.requestPath, .serviceEngine, .journalWriter, .applyEngine]
  | .requestPath => [.serviceEngine, .journalWriter, .applyEngine, .requestPath]
  | .serviceEngine => [.journalWriter, .applyEngine, .requestPath, .serviceEngine]

/-- R141: free slots at or below the open reserve of the active profile. -/
def State.reservePrecedence (s : State) : Bool :=
  match s.profile with
  | none => false
  | some p => s.freeSlots ≤ p.openReserve.toNat

/-- Whom the arbiter grants, and whether by rotation (R140, R141). No grant on a full list, in a drain (R144) or while the
part does not run (R147). -/
def State.arbiterChoice (s : State) : Option (Requester × Bool) :=
  if s.run = .running && !s.mem.draining && s.mem.outstanding.length < 16 then
    if s.reservePrecedence && s.eligible .applyEngine then some (.applyEngine, false)
    else ((rotationAfter s.mem.pointer).find? s.eligible).map fun r => (r, true)
  else none

end Sys2Proof.Machine
end

