-- ==== Sys2Proof/Machine/Ops.lean ====
section
/-! DEFINITION. The operations the blocks share: event records, places and responses, holds, slots, versions, groups, the
counters of the ring, the outstanding list. -/

namespace Sys2Proof.Machine

/-! ### Event records (R179, R181) -/

/-- An event record joins the queue, or is dropped and counted when 32 are queued (R181). -/
def ManagementPort.push (m : ManagementPort) (e : Event) : ManagementPort :=
  if m.events.length < 32 then { m with events := m.events ++ [e] }
  else if m.lost = 255#8 then m else { m with lost := m.lost + 1 }

def State.pushEvent (s : State) (e : Event) : State := { s with mgmt := s.mgmt.push e }

/-! ### Places and responses (R46 to R48) -/

/-- The place `i` of a stream's admission queue, when it is in use. -/
def State.place? (s : State) (st : Stream) (i : Fin 4) : Option Place :=
  (getV s.ports st).places.find? fun q => q.index = i

/-- The place `i` changed by `f`. -/
def StreamPort.update (p : StreamPort) (i : Fin 4) (f : Place → Place) : StreamPort :=
  { p with places := p.places.map fun q => if q.index = i then f q else q }

def State.updatePlace (s : State) (st : Stream) (i : Fin 4) (f : Place → Place) : State :=
  { s with ports := setV s.ports st ((getV s.ports st).update i f) }

/-- The response of a place becomes ready (R47). -/
def State.makeReady (s : State) (st : Stream) (i : Fin 4) (status : Status) : State :=
  s.updatePlace st i fun q => { q with phase := .ready status }

/-- The request in place `p` is declined (R62): its response is ready, its overlay buffer free (R41), the decline counter
rises and a DECLINE event is queued. -/
def State.decline (s : State) (st : Stream) (p : Place) (reason : DeclineReason) : State :=
  let s := s.updatePlace st p.index fun q => { q with phase := .ready (.declined reason), buffer := none }
  let s := { s with mgmt := { s.mgmt with declines := s.mgmt.declines + 1 } }
  s.pushEvent (.decline st p.request.addr reason p.request.tag)

/-- The places at the front of a queue whose responses are ready: their responses, and the places that stay (R47). -/
def departures : List Place → List Response × List Place
  | [] => ([], [])
  | p :: rest =>
    match p.phase with
    | .ready status =>
      let d := departures rest
      (⟨p.request.stream, p.request.tag, status⟩ :: d.1, d.2)
    | .waiting | .held | .passed | .reading | .withheld _ => ([], p :: rest)

/-- Every ready response whose earlier responses have left leaves (R47); the streams' departures are listed in ascending
stream order (log entry 11). -/
def State.departAll (s : State) : State :=
  { s with
    ports := mapStreams (fun _ p => { p with places := (departures p.places).2 }) s.ports
    out := { s.out with responses := s.out.responses
               ++ allStreams.flatMap fun st => (departures (getV s.ports st).places).1 } }

/-- Every taken and unanswered request leaves RETRACTED, each stream's in taken order (R48); holds, withheld responses and
the request-path queue go with them (R83, R144). -/
def State.retractAll (s : State) : State :=
  { s with
    ports := mapStreams (fun _ p => { p with places := [] }) s.ports
    holds := Vector.replicate 8 none
    groups := { s.groups with pipeline := s.groups.pipeline.map fun g => { g with commitResponse := none } }
    mem := { s.mem with path := [] }
    out := { s.out with responses := s.out.responses ++ allStreams.flatMap fun st =>
               (getV s.ports st).places.map fun q => ⟨q.request.stream, q.request.tag, .retracted⟩ } }

/-! ### Holds (R65 to R72) -/

/-- The hold ends: the record becomes free and its deadline is cancelled (R66). -/
def State.endHold (s : State) (st : Stream) : State := { s with holds := setV s.holds st none }

/-- The deadline of a hold that starts now (R72). -/
def State.newDeadline (s : State) : Option Nat :=
  match s.profile with
  | none => none
  | some p => if p.holdLimit = 0 then none else some (s.now + p.holdLimit.toNat)

/-- The record of a held write: filled when free, else its kind and wait set replaced and the deadline kept (R66). -/
def State.holdRecord (s : State) (st : Stream) (i : Fin 4) (kind : HoldKind) (waits : List Stream) : HeldWrite :=
  match getV s.holds st with
  | some h => { h with kind := kind, waitSet := waits }
  | none => { place := i, kind := kind, deadline := s.newDeadline, waitSet := waits, due := 0 }

/-- The write in place `i` becomes held, or is re-held (R66). -/
def State.holdWrite (s : State) (st : Stream) (i : Fin 4) (kind : HoldKind) (waits : List Stream) : State :=
  ({ s with holds := setV s.holds st (some (s.holdRecord st i kind waits)) }).updatePlace st i
    fun q => { q with phase := .held }

/-- Each held write that `f` picks is owed a re-examination (R67, log entry 7). -/
def State.owe (s : State) (f : Stream → HeldWrite → Bool) : State :=
  { s with holds := mapStreams (fun st h => h.map fun w => if f st w then { w with due := w.due + 1 } else w) s.holds }

/-- A retire re-examines SPACE and PIPELINE holds (R67). -/
def State.oweRetire (s : State) : State := s.owe fun _ w => w.kind = .space || w.kind = .pipeline

/-- A discard, an issue and a checkpoint acknowledgement re-examine SPACE holds (R67). -/
def State.oweSpace (s : State) : State := s.owe fun _ w => w.kind = .space

/-- The end of RESUME or FORMAT re-examines QUIESCE holds (R67). -/
def State.oweQuiesce (s : State) : State := s.owe fun _ w => w.kind = .quiesce

/-- The visited lines of the held write of a stream. -/
def State.heldLines (s : State) (st : Stream) (w : HeldWrite) : List Line :=
  match s.place? st w.place with
  | none => []
  | some p => p.request.visited

/-- Released lines re-examine each CONFLICT hold with an enabled byte in one of them, once (R33, R71). -/
def State.oweConflict (s : State) (released : List Line) : State :=
  s.owe fun st w => w.kind = .conflict && (s.heldLines st w).any released.contains

/-! ### The Slot Pool (R11 to R14) -/

/-- These slots lose their content and join the tail of the free list, in order (R8, R19). -/
def SlotPool.release (p : SlotPool) (ids : List SlotId) : SlotPool :=
  { slots := ids.foldl (fun v id => setV v id none) p.slots, free := p.free ++ ids }

/-- A slot filled. -/
def SlotPool.put (p : SlotPool) (id : SlotId) (x : Slot) : SlotPool := { p with slots := setV p.slots id (some x) }

/-- Bytes merged into a slot: each byte they hold replaces the slot's (R14). -/
def SlotPool.merge (p : SlotPool) (id : SlotId) (cells : List (Option Byte)) : SlotPool :=
  { p with slots := setV p.slots id ((getV p.slots id).map fun x => { x with cells := overlay x.cells cells }) }

/-! ### The Line Index (R24 to R32) -/

/-- The entry of a line. -/
def State.entry (s : State) (l : Line) : Option IndexEntry := s.index.find? fun e => e.line = l

/-- The new version `id` of line `l` in the open part, owner `st` (R28); a new entry stands in line order. -/
def indexTake (l : Line) (st : Stream) (id : SlotId) : List IndexEntry → List IndexEntry
  | [] => [{ line := l, owner := some st, sealedPart := [], unsealedPart := [], openPart := some id }]
  | e :: rest =>
    if e.line = l then { e with owner := some st, openPart := some id } :: rest
    else if l.toNat < e.line.toNat then
      { line := l, owner := some st, sealedPart := [], unsealedPart := [], openPart := some id } :: e :: rest
    else e :: indexTake l st id rest

/-- An entry when the group with these slots seals: its version becomes the last of the unsealed part (R29). -/
def IndexEntry.seal (e : IndexEntry) (ids : List SlotId) : IndexEntry :=
  match e.openPart with
  | none => e
  | some id => if ids.contains id then { e with unsealedPart := e.unsealedPart ++ [id], openPart := none } else e

/-- An entry when the group with these slots becomes SEALED: its version moves to the end of the sealed part, and the owner
is cleared when no unsealed or open version is left (R30). -/
def IndexEntry.becomeSealed (e : IndexEntry) (ids : List SlotId) : IndexEntry :=
  let moved := e.unsealedPart.filter ids.contains
  let kept := e.unsealedPart.filter fun id => !ids.contains id
  if moved.isEmpty then e
  else { e with sealedPart := e.sealedPart ++ moved, unsealedPart := kept,
                owner := if kept.isEmpty && e.openPart.isNone then none else e.owner }

/-- An entry when the OPEN group with these slots is discarded (R32). -/
def IndexEntry.discard (e : IndexEntry) (ids : List SlotId) : IndexEntry :=
  match e.openPart with
  | none => e
  | some id => if ids.contains id then
      { e with openPart := none, owner := if e.unsealedPart.isEmpty then none else e.owner } else e

/-- An entry when the group with these slots retires (R31). -/
def IndexEntry.retire (e : IndexEntry) (ids : List SlotId) : IndexEntry :=
  { e with sealedPart := e.sealedPart.filter fun id => !ids.contains id }

/-- Whether a version list is empty: such an entry is removed (R31, R32). -/
def IndexEntry.isEmpty (e : IndexEntry) : Bool :=
  e.sealedPart.isEmpty && e.unsealedPart.isEmpty && e.openPart.isNone

/-- The index with `f` applied to each entry, entries left empty removed. -/
def indexUpdate (f : IndexEntry → IndexEntry) (index : List IndexEntry) : List IndexEntry :=
  (index.map f).filter fun e => !e.isEmpty

/-- The lines that `f` releases: those whose entry loses its owner (R33). -/
def releasedBy (f : IndexEntry → IndexEntry) (index : List IndexEntry) : List Line :=
  (index.filter fun e => e.owner.isSome && (f e).owner.isNone).map (·.line)

/-! ### Groups (R1 to R4) -/

/-- The OPEN group of a stream. -/
def State.openGroup? (s : State) (st : Stream) : Option Group := getV s.groups.opens st

/-- The group with descriptor `ref` changed by `f`. -/
def GroupTable.update (t : GroupTable) (ref : Nat) (f : Group → Group) : GroupTable :=
  { t with opens := mapV (Option.map fun g => if g.ref = ref then f g else g) t.opens
           pipeline := t.pipeline.map fun g => if g.ref = ref then f g else g }

def State.updateGroup (s : State) (ref : Nat) (f : Group → Group) : State :=
  { s with groups := s.groups.update ref f }

/-- A group just opened (R3). -/
def newGroup (ref : Nat) (number : Word) (st : Stream) : Group :=
  { ref := ref, number := number, stream := st, state := .open, entries := [], recordCount := 0, firstRecord := none,
    commitNumber := none, commitResponse := none }

/-- The stream's open descriptor is filled; the next-group counter increments (R2, R3). -/
def State.openGroup (s : State) (st : Stream) : State :=
  { s with groups := { s.groups with
      opens := setV s.groups.opens st (some (newGroup s.groups.nextRef s.groups.nextGroup st))
      nextGroup := s.groups.nextGroup + 1, nextRef := s.groups.nextRef + 1 } }

/-- A group's slot for a line, if it holds one (R13). -/
def State.slotFor (s : State) (g : Group) (l : Line) : Option SlotId :=
  g.entries.find? fun id => (s.slot id).map (·.line) = some l

/-- One ENTRY record of the group joins the queue and its record count rises (R13, R105). -/
def State.queueEntry (s : State) (st : Stream) (g : Group) (id : SlotId) : State :=
  { s with
    groups := { s.groups with opens := setV s.groups.opens st (some { g with recordCount := g.recordCount + 1 }) }
    journal := { s.journal with queue := s.journal.queue ++ [{ kind := .entry id, group := g.ref }] } }

/-- One visited line of a write joins the OPEN group: coalesced into the slot the group holds for it (R14), else with a
slot from the head of the free list (R13). -/
def State.takeLine (s : State) (st : Stream) (l : Line) (cells : List (Option Byte)) : State :=
  match s.openGroup? st with
  | none => s
  | some g =>
    match s.slotFor g l, s.pool.free with
    | some id, _ => ({ s with pool := s.pool.merge id cells }).queueEntry st g id
    | none, [] => s
    | none, id :: free =>
      ({ s with pool := ({ s.pool with free := free }).put id { line := l, cells := cells, group := g.ref }
                index := indexTake l st id s.index }).queueEntry st { g with entries := g.entries ++ [id] } id

/-- The lines of a write join the stream's OPEN group, in ascending order (R13). -/
def State.takeLines (s : State) (st : Stream) (r : Request) : State :=
  r.visited.foldl (fun s l => s.takeLine st l (r.cells l)) s

/-- The OPEN group of the stream is sealed by the write in place `i` with tag `tag` (R4, R29, R87). -/
def State.sealGroup (s : State) (st : Stream) (i tag : Fin 4) : State :=
  match s.openGroup? st with
  | none => s
  | some g =>
    let sealed := { g with state := .sealing, commitResponse := some ⟨st, tag⟩ }
    let s : State := { s with
      groups := { s.groups with opens := setV s.groups.opens st none, pipeline := s.groups.pipeline ++ [sealed] }
      index := s.index.map fun e => e.seal g.entries
      journal := { s.journal with queue := s.journal.queue ++ [{ kind := .commit, group := g.ref }] } }
    s.updatePlace st i fun q => { q with phase := .withheld g.ref }

/-- A write is taken (R58): its hold ends, a group opens if the stream has none, its lines join, and a commit write seals
the group; the response of any other write is ready OK. -/
def State.takeWrite (s : State) (st : Stream) (p : Place) (commit : Bool) : State :=
  let s := s.endHold st
  let s := if (s.openGroup? st).isSome then s else s.openGroup st
  let s := s.takeLines st p.request
  if commit then s.sealGroup st p.index p.request.tag else s.makeReady st p.index (.ok [])

/-! ### Checkpoint wants, the live tail, the quiesce test -/

/-- A checkpoint is wanted (R130): pending until its issue. -/
def State.wantCheckpoint (s : State) : State := { s with ckpt := { s.ckpt with pending := true } }

/-- Engine Control asks for a checkpoint (R130). -/
def State.requestCheckpoint (s : State) (r : CheckpointRequest) : State :=
  { s with ckpt := { s.ckpt with request := some r, pending := true } }

/-- The distance trigger holds (R130). -/
def State.distanceHolds (s : State) : Bool :=
  s.journal.format.isSome && 3 * s.ringSize ≤ 4 * s.distance && later s.journal.liveTail s.ckpt.durableTail

/-- The distance trigger is evaluated (R130). -/
def State.distanceTrigger (s : State) : State := if s.distanceHolds then s.wantCheckpoint else s

/-- The earlier of two sequence numbers by distance after the durable tail (R115). -/
def earlier (durable a b : Word) : Word := if (b - durable).toNat < (a - durable).toNat then b else a

/-- The live tail over these groups (R115): the earliest first record sequence, the head when there is none. -/
def liveTailOf (durable head : Word) (groups : List Group) : Word :=
  match groups.filterMap (·.firstRecord) with
  | [] => head
  | x :: rest => rest.foldl (earlier durable) x

/-- The live tail is recomputed (R115). -/
def State.recomputeLiveTail (s : State) : State :=
  { s with journal := { s.journal with liveTail := liveTailOf s.ckpt.durableTail s.journal.head s.groups.all } }

/-- Whether the Checkpoint Logic holds a QUIESCE request, answered by an unacknowledged checkpoint or not (R167). -/
def CheckpointLogic.holdsQuiesce (c : CheckpointLogic) : Bool :=
  c.request == some .quiesce || c.inFlight.any (·.answers == some .quiesce)
    || c.retained.any (·.answers == some .quiesce)

/-- The quiesce-completion test (R167). -/
def State.quiesceTest (s : State) : State :=
  if s.engine.state = .quiescing && s.noGroup && s.journal.outstanding.isEmpty && !s.ckpt.holdsQuiesce then
    s.requestCheckpoint .quiesce
  else s

/-! ### Discard (R18 to R20) -/

/-- A record of a discarded group in the failed list becomes a FILLER (R111). -/
def IssuedRecord.discard (ref : Nat) (r : IssuedRecord) : IssuedRecord :=
  if r.group = ref then { r with kind := .filler } else r

/-- The OPEN group `g` of a stream is discarded (R19, R20): all but what follows from the released lines and space. -/
def State.discardGroup (s : State) (st : Stream) (g : Group) (reason : DiscardReason) : State :=
  let s := { s with
    groups := { s.groups with opens := setV s.groups.opens st none }
    pool := s.pool.release g.entries
    index := indexUpdate (fun e => e.discard g.entries) s.index
    journal := { s.journal with queue := s.journal.queue.filter fun q => q.group ≠ g.ref
                                failed := s.journal.failed.map (IssuedRecord.discard g.ref) } }
  let s := s.recomputeLiveTail
  let s := { s with mgmt := { s.mgmt with discards := s.mgmt.discards + 1 } }
  s.pushEvent (.groupDiscarded st g.number reason)

/-- The lines a discard of `g` releases (R32, R33). -/
def State.discardReleases (s : State) (g : Group) : List Line := releasedBy (fun e => e.discard g.entries) s.index

/-- What follows a discard in its event (R19, R33, R67, R130, R167). -/
def State.afterDiscard (s : State) (released : List Line) : State :=
  (((s.oweConflict released).oweSpace).distanceTrigger).quiesceTest

/-- A cause of discard names a stream: its OPEN group, if it has one, is discarded (R18). -/
def State.discardOpenGroup (s : State) (st : Stream) (reason : DiscardReason) : State :=
  match s.openGroup? st with
  | none => s
  | some g => (s.discardGroup st g reason).afterDiscard (s.discardReleases g)

/-! ### SEALED and retire (R91, R125) -/

/-- The place that waits for the group `ref` has its response ready OK (R89). -/
def Place.release (ref : Nat) (q : Place) : Place :=
  if q.phase = .withheld ref then { q with phase := .ready (.ok []) } else q

/-- The SEALED event of the group `ref` (R91). -/
def State.sealedEvent (s : State) (ref : Nat) : State :=
  match s.findGroup ref with
  | none => s
  | some g =>
    let released := releasedBy (fun e => e.becomeSealed g.entries) s.index
    let s := s.updateGroup ref fun g => { g with state := .sealed, commitResponse := none }
    let s : State := { s with
      index := s.index.map fun e => e.becomeSealed g.entries
      ports := mapStreams (fun _ p => { p with places := p.places.map (Place.release ref) }) s.ports
      mgmt := { s.mgmt with commits := s.mgmt.commits + 1 } }
    s.oweConflict released

/-- The group `g` retires (R125). -/
def State.retire (s : State) (g : Group) : State :=
  let s := { s with
    groups := { s.groups with pipeline := s.groups.pipeline.filter fun x => x.ref ≠ g.ref }
    pool := s.pool.release g.entries
    index := indexUpdate (fun e => e.retire g.entries) s.index
    apply := none
    ckpt := { s.ckpt with retiredThrough := g.commitNumber.getD s.ckpt.retiredThrough } }
  ((s.recomputeLiveTail.distanceTrigger).oweRetire).quiesceTest

/-! ### The outstanding list (R139) -/

/-- A request is issued on the link and joins the outstanding list (R139). -/
def State.issue (s : State) (purpose : Purpose) (r : MemRequest) : State :=
  { s with mem := { s.mem with outstanding := s.mem.outstanding ++ [{ purpose := purpose, request := r, live := true }] }
           out := { s.out with issued := some r } }

/-- The front entry of the outstanding list leaves (R139). -/
def State.dropFront (s : State) : State := { s with mem := { s.mem with outstanding := s.mem.outstanding.tail } }

/-- The completions of these outstanding requests will be ignored (R149, R152, R158, R172, R174). -/
def State.ignore (s : State) (f : Purpose → Bool) : State :=
  { s with mem := { s.mem with outstanding := s.mem.outstanding.map fun e => { e with live := e.live && !f e.purpose } } }

/-! ### The end of an event -/

/-- The works of the Service Engine in a fixed order. -/
def allWorks : List ServiceWork := [.checkpoint, .recovery, .format, .digest]

/-- The works with a ready request, in the order they became ready (R138). Of two that become ready in one event either may
be presented first: a free value (log entry 8). -/
def State.refreshReady (s : State) : State :=
  let kept := s.service.readyOrder.filter s.workReady
  let added := allWorks.filter fun w => s.workReady w && !kept.contains w
  if 2 ≤ added.length then
    { s with service := { s.service with readyOrder := kept ++ if Config.serviceTie s.freeCount then added else added.reverse }
             freeCount := s.freeCount + 1 }
  else { s with service := { s.service with readyOrder := kept ++ added } }

/-- The end of an event: ready responses leave (R47), and newly ready works line up (R138). -/
def State.finish (s : State) : State := s.departAll.refreshReady

/-- Nothing has been put on the ports yet in this event. -/
def State.clearOut (s : State) : State := { s with out := Outputs.none }

/-- What a command answers. -/
abbrev Answer := Host.Outcome State Fault Refusal

/-- An event of a running part: with its conditions met it has the effect `f`; else it does not take place and changes
nothing but the outputs (log entry 1). -/
def happen (s : State) (enabled : Bool) (f : State → State) : Answer :=
  if s.run = .running && enabled then .next (f s.clearOut).finish else .next s.clearOut

end Sys2Proof.Machine
end

