-- ==== Sys2Proof/Machine/Control.lean ====
section
/-! DEFINITION. Engine Control and the command slot: command ends (R177), fault reports (R163), the steps of CLEAR_FAULT
(R165, R166), the answers to checkpoint requests (R132, R157, R167, R170), the drain and its clearings (R144, R160, R171),
and profile validation (R169). -/

namespace Sys2Proof.Machine

/-! ### The command slot (R177) -/

/-- The running command ends: its result, the slot IDLE, a COMMAND_DONE event (R177). -/
def State.endCommandWith (s : State) (r : Result) (item : Byte) (test : BitVec 4) : State :=
  match s.mgmt.running with
  | none => s
  | some c =>
    let m := { s.mgmt with running := none, result := { s.mgmt.result with result := r, item := item, test := test } }
    { s with mgmt := m.push (.commandDone c.code r) }

/-- A running command ends without an item. -/
def State.endCommand (s : State) (r : Result) : State := s.endCommandWith r 0 0

/-- If `c` is the running command, it ends. -/
def State.endIf (s : State) (c : Command) (r : Result) : State :=
  if s.mgmt.running = some c then s.endCommand r else s

/-- A command is taken and ends in the taking event (R177); `item` and `test` are those of a PROFILE_INVALID. -/
def State.answerAtOnce (s : State) (code : Byte) (r : Result) (item : Byte := 0) (test : BitVec 4 := 0) : State :=
  let m := { s.mgmt with result := { code := code, result := r, item := item, test := test, overrun := false } }
  { s with mgmt := m.push (.commandDone code r) }

/-- A command is taken and goes on: the slot RUNNING with result RUNNING (R177). -/
def State.takeRunning (s : State) (c : Command) : State :=
  { s with mgmt := { s.mgmt with
      running := some c
      result := { code := c.code, result := .running, item := 0, test := 0, overrun := false } } }

/-- A command offered to the slot: taken when IDLE, dropped with overrun when RUNNING (R177). -/
def State.offer (s : State) (f : State → State) : State :=
  if s.mgmt.running.isSome then { s with mgmt := { s.mgmt with result := { s.mgmt.result with overrun := true } } }
  else f s

/-! ### Fault reports (R163) -/

/-- The cause set with `c` joined, in the order of the codes. -/
def joinCause (c : FaultCause) (causes : List FaultCause) : List FaultCause :=
  allCauses.filter fun x => x = c || causes.contains x

/-- The return state of a fault entry (R163); `answered` is the request the failed checkpoint answered. -/
def returnStateAt (state : EngineState) (c : FaultCause) (answered : Option CheckpointRequest) : Option EngineState :=
  match state with
  | .online => some .online
  | .quiescing => some .quiescing
  | .quiesced => if answered = some .resume then some .online else some .quiesced
  | .recovering => if c = .checkpointWrite then some .online else none
  | .unformatted => none
  | .faulted => none

/-- The held write of a stream is declined for `reason` and its hold ends (R66, R73, R81, R82). -/
def State.declineHeld (s : State) (reason : DeclineReason) (st : Stream) : State :=
  match getV s.holds st with
  | none => s
  | some h =>
    match s.place? st h.place with
    | none => s.endHold st
    | some p => (s.endHold st).decline st p reason

/-- The rewrite of the retained anchor when its CLEAR_FAULT ends FAILED: halves in flight complete, no further half is
issued (R166, log entry 12). -/
def Rewrite.disown (w : Rewrite) : Option Rewrite :=
  if w.secondGranted || w.first.isNone then some { w with own := false } else none

/-- A running CLEAR_FAULT ends FAILED (R166). -/
def State.failClear (s : State) : State :=
  let s := { s with engine := { s.engine with clear := none }
                    ckpt := { s.ckpt with rewrite := s.ckpt.rewrite.bind Rewrite.disown } }
  s.endIf .clearFault .failed

/-- FAULTED is entered (R163): the record, the FAULT event, every held write declined (R81), a RESUME whose checkpoint
failed and a RESTART ended FAILED (R160, R170). -/
def State.enterFaulted (s : State) (c : FaultCause) (answered : Option CheckpointRequest) : State :=
  let s := { s with engine := { s.engine with
    state := .faulted, firstCause := some c, causes := [c]
    returnState := returnStateAt s.engine.state c answered, quiescePending := false } }
  let s := s.pushEvent (.fault c)
  let s := allStreams.foldl (State.declineHeld · .engineFault) s
  let s := if answered = some .resume then s.endIf .resume .failed else s
  s.endIf .restart .failed

/-- A cause is reported to Engine Control (R163); a cause that joins the set ends a running CLEAR_FAULT FAILED (R166), its
COMMAND_DONE queued after the FAULT record (log entry 11). -/
def State.report (s : State) (c : FaultCause) (answered : Option CheckpointRequest) : State :=
  if s.engine.state = .faulted then
    if s.engine.causes.contains c then s
    else
      let s := { s with engine := { s.engine with causes := joinCause c s.engine.causes } }
      let s := s.pushEvent (.fault c)
      if s.engine.clear.isSome then s.failClear else s
  else s.enterFaulted c answered

/-! ### CLEAR_FAULT (R165, R166) -/

/-- A completed step's cause leaves the cause set (R165). -/
def State.dropCause (s : State) (c : FaultCause) : State :=
  { s with engine := { s.engine with causes := s.engine.causes.filter (· ≠ c) } }

/-- The end of recovery in ONLINE is announced (R157): the phase ends and RECOVERY_DONE is queued. -/
def State.recoveryDone (s : State) : State :=
  let s := { s with service := { s.service with recovery := { s.service.recovery with phase := none } } }
  s.pushEvent (.recoveryDone s.service.recovery.groupsReplayed)

/-- The activation copy becomes the active profile and becomes absent (R170). -/
def State.activate (s : State) : State :=
  { s with profile := s.engine.activation <|> s.profile, engine := { s.engine with activation := none } }

/-- The state that a CLEAR_FAULT ending DONE enters (R166). -/
def State.clearTarget (s : State) (answered : Option CheckpointRequest) : EngineState :=
  if answered = some .quiesce || s.engine.returnState = some .quiesced then .quiesced
  else if s.engine.returnState = some .quiescing || s.engine.quiescePending then .quiescing
  else .online

/-- CLEAR_FAULT ends DONE and the engine leaves FAULTED (R166); `answered` is the request the anchor step answered. -/
def State.finishClear (s : State) (answered : Option CheckpointRequest) : State :=
  let target := s.clearTarget answered
  let s := if answered = some .resume then s.activate else s
  let s := if answered = some .recovery then s.recoveryDone else s
  let s := { s with engine := { s.engine with
    state := target, firstCause := none, causes := [], returnState := none, quiescePending := false,
    activation := none, clear := none } }
  let s := s.pushEvent (.faultCleared target)
  let s := if target = .quiesced then s.pushEvent (.state .quiesced) else s
  let s := s.endIf .clearFault .done
  s.distanceTrigger.quiesceTest

/-- The anchor step begins (R165): without its cause, or without a retained anchor (log entry 12), it completes at once. -/
def State.anchorStep (s : State) : State :=
  if s.engine.causes.contains .checkpointWrite && s.ckpt.retained.isSome then
    { s with engine := { s.engine with clear := some .anchor } }
  else (s.dropCause .checkpointWrite).finishClear none

/-- A new attempt for the applying group begins (R127). -/
def State.startAttempt (s : State) (a : ApplyRecord) : State :=
  { s with apply := some { a with nextPos := 0, acked := 0, stopped := false }
           engine := { s.engine with clear := some (.apply true) } }

/-- The apply step begins (R165): it starts the new attempt once nothing is outstanding (R127). Without its cause, or without
an applying group (log entry 12), it completes at once. -/
def State.applyStep (s : State) : State :=
  if s.engine.causes.contains .applyWrite then
    match s.apply with
    | none => (s.dropCause .applyWrite).anchorStep
    | some a => if a.outstanding = 0 then s.startAttempt a
        else { s with engine := { s.engine with clear := some (.apply false) } }
  else s.anchorStep

/-- The failed list is rewritten in full: nothing is outstanding and the list is empty (R112). -/
def State.journalClean (s : State) : Bool := s.journal.failed.isEmpty && s.journal.outstanding.isEmpty

/-- The journal step begins (R165): without its cause it completes at once. -/
def State.journalStep (s : State) : State :=
  if s.engine.causes.contains .journalWrite then
    if s.journalClean then (s.dropCause .journalWrite).applyStep
    else { s with engine := { s.engine with clear := some (.journal false) } }
  else s.applyStep

/-- A running CLEAR_FAULT goes on after an acknowledgement: "each step begins in the event in which the one before it
completes" (R165). -/
def State.continueClear (s : State) : State :=
  match s.engine.clear with
  | none => s
  | some (.journal _) => if s.journalClean then (s.dropCause .journalWrite).applyStep else s
  | some (.apply started) =>
    match s.apply with
    | none => (s.dropCause .applyWrite).anchorStep
    | some a => if !started && a.outstanding = 0 then s.startAttempt a else s
  | some .anchor => s

/-! ### Answers to checkpoint requests -/

/-- A checkpoint has landed (R132): durable tail, number and copy move; SPACE holds are re-examined. -/
def State.landed (s : State) (c : Copy) (a : Anchor) : State :=
  ({ s with ckpt := { s.ckpt with durableTail := a.tail, number := a.number, lastCopy := some c } }).oweSpace

/-- The state Engine Control enters on a request's success; in FAULTED it is entered at the end of CLEAR_FAULT, so it
becomes the return state (R166, log entry 12). -/
def State.enterOnSuccess (s : State) (target : EngineState) : State :=
  if s.engine.state = .faulted then { s with engine := { s.engine with returnState := some target } }
  else { s with engine := { s.engine with state := target } }

/-- The STATE event of a state entered, unless the engine stays FAULTED. -/
def State.announce (s : State) (target : EngineState) : State :=
  if s.engine.state = target then s.pushEvent (.state target) else s

/-- Engine Control is told that the checkpoint it asked for succeeded (R157, R160, R167, R170). -/
def State.answerRequest (s : State) : CheckpointRequest → State
  | .quiesce => (s.enterOnSuccess .quiesced).announce .quiesced
  | .resume => ((((s.activate).enterOnSuccess .online).announce .online).endIf .resume .done).oweQuiesce
  | .recovery => ((s.enterOnSuccess .online).recoveryDone).endIf .restart .done

/-! ### Clearings (R22, R42, R83, R119, R135, R146, R160, R171) -/

/-- The Service Engine with no work: the recovery record emptied, phase ANCHORS (R148). -/
def ServiceEngine.cleared (format : Option FormatWork) : ServiceEngine :=
  { recovery := Recovery.empty, replay := none, format := format, digest := none, readyOrder := [] }

/-- The clearing both RESTART and FORMAT from FAULTED make after the drain, the retired-through number kept (R135). -/
def State.clearBlocks (s : State) : State :=
  { s with
    groups := GroupTable.cleared 1
    pool := SlotPool.cleared
    index := []
    holds := Vector.replicate 8 none
    journal := JournalWriter.cleared s.journal.format
    apply := none
    ckpt := { s.ckpt with durableTail := 0, inFlight := none, pending := false, request := none, retained := none,
                          rewrite := none }
    mem := MemoryPort.idle
    service := ServiceEngine.cleared s.service.format }

/-- The clearing of RESTART; recovery begins (R160). -/
def State.restartClearing (s : State) : State :=
  let s := s.clearBlocks
  { s with service := ServiceEngine.cleared none }

/-! ### Validation (R169) -/

/-- Whether two ranges of bytes share one. -/
def rangesMeet (a aStop b bStop : Nat) : Bool := a < bStop && b < aStop

/-- The first test of region `i` that fails, counted from 1 (R169, R187). -/
def regionFault (p : Profile) (base n : Nat) (i : Nat) : Option (BitVec 4) :=
  match p.regions.toList[i]? with
  | none => none
  | some g =>
    if !g.enabled then none
    else if g.sizeExp.toNat < 12 || 32 < g.sizeExp.toNat then some 1
    else if g.base.toNat % g.size ≠ 0 then some 2
    else if (p.regions.toList.take i).any fun h => h.enabled && rangesMeet g.base.toNat g.stop h.base.toNat h.stop then
      some 3
    else if rangesMeet g.base.toNat g.stop base (base + journalLength n) then some 4
    else none

/-- The commit and cancel word addresses of an entry. -/
def StreamEntry.words (e : StreamEntry) : List Addr := e.commitWord :: e.cancel.toList

/-- Whether the byte at `a` lies in an enabled region. -/
def Profile.inRegion (p : Profile) (a : Nat) : Bool := (p.regionAt a).isSome

/-- The first test of stream `j` that fails, counted from 1 (R169, R187). -/
def streamFault (p : Profile) (base n : Nat) (j : Nat) : Option (BitVec 4) :=
  match p.streams.toList[j]? with
  | none => none
  | some e =>
    if !e.enabled then none
    else if e.commitWord.toNat % 8 ≠ 0 then some 1
    else if !(p.regions.toList.any fun g => g.enabled && g.holds e.commitWord.toNat && g.mask.getLsbD j) then some 2
    else if e.cancel.any fun a => a.toNat % 8 ≠ 0 || p.inRegion a.toNat
        || (base ≤ a.toNat && a.toNat < base + journalLength n) then some 3
    else if (p.streams.toList.take j).any fun f => f.enabled && e.words.any f.words.contains then some 4
    else if e.entryLimit.toNat < 1 || 64 < e.entryLimit.toNat then some 5
    else none

/-- The first test that fails, as item and test (R169, R187); none for a valid profile. -/
def profileFault (p : Profile) (base n : Nat) : Option (Byte × BitVec 4) :=
  ((List.range 6).findSome? fun i => (regionFault p base n i).map fun t => (BitVec.ofNat 8 i, t))
    <|> ((List.range 8).findSome? fun j => (streamFault p base n j).map fun t => (BitVec.ofNat 8 (8 + j), t))
    <|> (if 128 < p.openReserve.toNat then some (16, 1) else none)

/-! ### FORMAT's checks (R171) -/

/-- The checks of FORMAT: a stamp of zero or that of the current format, then the staging profile. -/
def State.formatFault (s : State) (w : FormatWork) : Option (Result × Byte × BitVec 4) :=
  if w.stamp = 0 || s.journal.format.any (·.stamp = w.stamp) then some (.stampReused, 0, 0)
  else (profileFault s.engine.staging (journalBase s.abase) (Machine.ringSize w.code)).map
    fun f => (.profileInvalid, f.1, f.2)

/-- The checks have passed: the staging profile is copied and the writes may begin (R171, R172). -/
def State.beginFormat (s : State) (w : FormatWork) : State :=
  { s with engine := { s.engine with activation := some s.engine.staging }
           service := { s.service with format := some { w with checked := true } } }

/-- The clearing of FORMAT from FAULTED, the retired-through number 0 with it (R135), then its checks (R171). An activation copy
left by a failed RESUME stays when the checks fail (log entry 14). -/
def State.formatClearing (s : State) (w : FormatWork) : State :=
  let s := s.clearBlocks
  let s := { s with engine := { s.engine with causes := [] }, ckpt := { s.ckpt with retiredThrough := 0 } }
  match s.formatFault w with
  | some (r, item, test) =>
    ({ s with service := { s.service with format := none } }).endCommandWith r item test
  | none => s.beginFormat w

/-! ### The drain (R144) -/

/-- The drain is complete once the outstanding list is empty: the clearing of the command it serves follows (R144). -/
def State.drainCheck (s : State) : State :=
  if s.mem.outstanding.isEmpty then
    match s.mgmt.running, s.service.format with
    | some .format, some w => s.formatClearing w
    | _, _ => s.restartClearing
  else s

/-- The drain begins (R144). -/
def State.beginDrain (s : State) : State :=
  ({ s with mem := { s.mem with draining := true, path := [] } }).drainCheck

end Sys2Proof.Machine
end

