-- ==== Sys2Proof/Machine/Grants.lean ====
section
/-! DEFINITION. The grant event (R139, R140) and what each requester does in it: the meanings of MEMORY_GRANT and of the rows
that name one kind of grant. -/

namespace Sys2Proof.Machine

/-! ### Journal Writer (R107, R108, R112) -/

/-- A group with nothing in it: records and home writes name a group that exists, so this stands for no state of the part. -/
def Group.blank : Group := newGroup 0 0 0

/-- The group a record names. -/
def State.groupOf (s : State) (ref : Nat) : Group := (s.findGroup ref).getD Group.blank

/-- The 64 bytes of a record: its content read from the group and the slot as they stand (R107, R112). -/
def State.recordBytes (s : State) (kind : RecordKind) (g : Group) (seq : Word) : List Byte :=
  let stamp := s.journal.format.elim 0 fun f => f.stamp
  match kind with
  | .entry id =>
    let x := (s.slot id).getD Slot.blank
    entryRecord stamp seq g x.line x.cells
  | .commit => commitRecord stamp seq g (g.commitNumber.getD 0)
  | .filler => fillerRecord stamp seq

/-- The write of a record to its position (R107). -/
def State.recordWrite (s : State) (kind : RecordKind) (g : Group) (seq : Word) : MemRequest :=
  { addr := (s.recordRead seq).addr, op := .write (allPresent (s.recordBytes kind g seq)) }

/-- The descriptor fields an issue sets: the first record sequence, and a COMMIT's commit number (R17, R107, R108). -/
def Group.issued (kind : RecordKind) (seq number : Word) (g : Group) : Group :=
  { g with firstRecord := g.firstRecord <|> some seq
           commitNumber := if kind = .commit then some number else g.commitNumber }

/-- The record at the front of the queue is issued (R107, R108). -/
def State.issueRecord (s : State) : State :=
  match s.journal.queue with
  | [] => s
  | q :: rest =>
    let seq := s.journal.head
    let s := s.updateGroup q.group (Group.issued q.kind seq s.journal.nextCommit)
    let s := s.issue .record (s.recordWrite q.kind (s.groupOf q.group) seq)
    let s : State := { s with journal := { s.journal with
      queue := rest
      outstanding := s.journal.outstanding ++ [({ seq := seq, kind := q.kind, group := q.group } : IssuedRecord)]
      head := seq + 1
      nextCommit := if q.kind = .commit then s.journal.nextCommit + 1 else s.journal.nextCommit } }
    s.oweSpace.distanceTrigger

/-- The front of the failed list is rewritten under its own sequence number (R112). -/
def State.issueRewrite (s : State) : State :=
  match s.journal.failed with
  | [] => s
  | r :: _ =>
    let s := s.issue .rewrite (s.recordWrite r.kind (s.groupOf r.group) r.seq)
    { s with engine := { s.engine with clear := some (.journal true) } }

/-! ### Apply Engine (R123) -/

/-- The home write of the next slot is issued (R123). -/
def State.issueHomeWrite (s : State) : State :=
  match s.apply with
  | none => s
  | some a =>
    match (s.groupOf a.group).entries[a.nextPos]? with
    | none => s
    | some id =>
      let s := s.issue .homeWrite (s.homeWriteOf id)
      { s with apply := some { a with nextPos := a.nextPos + 1, outstanding := a.outstanding + 1 } }

/-! ### Request path (R37, R142) -/

/-- The versions of a line that reader `st` may see, in list order (R35). -/
def IndexEntry.visible (e : IndexEntry) (st : Stream) : List SlotId :=
  e.sealedPart ++ if e.owner = some st then e.unsealedPart ++ e.openPart.toList else []

/-- The visible versions of a line laid over one another, oldest first (R35). -/
def State.lineOverlay (s : State) (st : Stream) (l : Line) : List (Option Byte) :=
  match s.entry l with
  | none => List.replicate 32 none
  | some e => (e.visible st).foldl (fun acc id => overlay acc ((s.slot id).getD Slot.blank).cells) (List.replicate 32 none)

/-- The overlay of a block for a read: the visible bytes inside the request's range (R37). -/
def State.captureCells (s : State) (st : Stream) (r : Request) : List (Option Byte) :=
  (List.range 4).flatMap fun k =>
    let line := r.addr.toNat / 128 * 4 + k
    List.zipWith (fun o c => if r.first ≤ 32 * line + o && 32 * line + o < r.stop then c else none)
      (List.range 32) (s.lineOverlay st (BitVec.ofNat 31 line))

/-- The capture of a merged read: its buffer moves to CAPTURED (R36, R37). -/
def State.capture (s : State) (st : Stream) (i : Fin 4) : State :=
  s.updatePlace st i fun q =>
    { q with buffer := q.buffer.map fun b => { b with state := .captured, cells := s.captureCells st q.request } }

/-- The oldest request of the request-path queue is issued (R142), with the capture of a merged read (R37). -/
def State.issuePath (s : State) : State :=
  match s.mem.path with
  | [] => s
  | p :: rest =>
    let s := { s with mem := { s.mem with path := rest } }
    if p.merged then (s.issue (.homeRead p.stream p.place) p.request).capture p.stream p.place
    else s.issue (.passThrough p.stream p.place) p.request

/-! ### Service Engine (R131, R133, R138, R149, R152 to R155, R172, R174) -/

/-- The copy a checkpoint writes: the other than the last copy, or A (R131). -/
def otherCopy : Option Copy → Copy
  | some .a => .b
  | some .b => .a
  | none => .a

/-- The anchor content formed at the issue of a checkpoint (R131). -/
def State.formAnchor (s : State) : Anchor :=
  { stamp := s.journal.format.elim 0 fun f => f.stamp
    code := s.journal.format.elim 0 fun f => f.code
    number := s.ckpt.number + 1
    tail := s.journal.liveTail
    through := s.ckpt.retiredThrough
    nextGroup := s.groups.nextGroup
    nextCommit := s.journal.nextCommit
    profile := ((if s.ckpt.request = some .resume then s.engine.activation else s.profile).getD Profile.coldReset) }

/-- The write of half an anchor (R131). -/
def State.anchorWrite (s : State) (c : Copy) (a : Anchor) (second : Bool) : MemRequest :=
  { addr := anchorAddress s.abase c second, op := .write (allPresent (anchorHalf a second)) }

/-- A checkpoint is issued with the grant of its first half (R131). -/
def State.issueCheckpoint (s : State) : State :=
  let a := s.formAnchor
  let c := otherCopy s.ckpt.lastCopy
  let s := s.issue (.anchorHalf false false) (s.anchorWrite c a false)
  { s with ckpt := { s.ckpt with
      inFlight := some { copy := c, anchor := a, answers := s.ckpt.request, first := none, secondGranted := false }
      pending := false, request := none } }

/-- The second half of the checkpoint in flight (R131). -/
def State.issueSecondHalf (s : State) : State :=
  match s.ckpt.inFlight with
  | none => s
  | some f =>
    let s := s.issue (.anchorHalf true false) (s.anchorWrite f.copy f.anchor true)
    { s with ckpt := { s.ckpt with inFlight := some { f with secondGranted := true } } }

/-- A half of the rewrite of the retained anchor (R133). -/
def State.issueRewriteHalf (s : State) (second : Bool) : State :=
  match s.ckpt.retained with
  | none => s
  | some r =>
    let first := s.ckpt.rewrite.bind fun w => w.first
    let s := s.issue (.anchorHalf second true) (s.anchorWrite r.copy r.anchor second)
    { s with ckpt := { s.ckpt with rewrite := some { first := first, secondGranted := second, own := true } } }

/-- What the Checkpoint Logic presents is issued. -/
def State.issueTurn (s : State) : CheckpointTurn → State
  | .first => s.issueCheckpoint
  | .second => s.issueSecondHalf
  | .rewriteFirst => s.issueRewriteHalf false
  | .rewriteSecond => s.issueRewriteHalf true

/-- A read or write of recovery is issued; a replay write advances the position (R155). -/
def State.issueRecovery (s : State) (x : Purpose × MemRequest) : State :=
  let s := s.issue x.1 x.2
  match x.1 with
  | .replayWrite => { s with service := { s.service with
      replay := s.service.replay.map fun p => { p with nextPos := p.nextPos + 1 } } }
  | _ => s

/-- A FORMAT write is issued (R172). -/
def State.issueFormat (s : State) (x : Purpose × MemRequest) : State :=
  let s := s.issue x.1 x.2
  { s with service := { s.service with format := s.service.format.map fun w => { w with granted := w.granted + 1 } } }

/-- A DIGEST read is issued: the next address moves past it (R174). -/
def State.issueDigest (s : State) (x : Purpose × MemRequest) : State :=
  let s := s.issue x.1 x.2
  { s with service := { s.service with digest := s.service.digest.map fun d => { d with next := digestStop d.next d.stop } } }

/-- The ready request of a work of the Service Engine is issued (R138). -/
def State.issueWork (s : State) (w : ServiceWork) : State :=
  let t := { s with service := { s.service with readyOrder := s.service.readyOrder.erase w } }
  match w with
  | .checkpoint => s.checkpointTurn.elim s t.issueTurn
  | .recovery => s.recoveryRequest.elim s t.issueRecovery
  | .format => s.formatRequest.elim s t.issueFormat
  | .digest => s.digestRequest.elim s t.issueDigest

/-! ### The grant event -/

/-- The requester's ready request is granted (R139). -/
def State.grantTo (s : State) : Requester → State
  | .journalWriter => if s.recordReady then s.issueRecord else s.issueRewrite
  | .applyEngine => s.issueHomeWrite
  | .requestPath => s.issuePath
  | .serviceEngine => s.presentedWork.elim s s.issueWork

/-- A grant by rotation moves the pointer (R140); a grant by R141 does not. -/
def State.movePointer (s : State) (r : Requester) (byRotation : Bool) : State :=
  if byRotation then { s with mem := { s.mem with pointer := r } } else s

/-- The grant the arbiter makes (R140, R141). -/
def State.grant (s : State) : State :=
  match s.arbiterChoice with
  | none => s
  | some (r, byRotation) => (s.movePointer r byRotation).grantTo r

/-- The requester the arbiter chooses. -/
def State.chosen (s : State) : Option Requester := s.arbiterChoice.map (·.1)

/-- Whether the oldest request of the request-path queue is a merged home read. -/
def State.pathMerged (s : State) : Option Bool := s.mem.path.head?.map (·.merged)

/-- Whether the Service Engine presents the first half of a checkpoint's anchor. -/
def State.presentsCheckpoint (s : State) : Bool :=
  s.presentedWork = some .checkpoint && s.checkpointTurn = some .first

/-! ### The meanings -/

/-- MEMORY_GRANT: the arbiter grants one eligible requester's ready request (R140). -/
def execMemoryGrant (s : State) : Answer := happen s s.chosen.isSome State.grant

/-- RECORD_ISSUE: the grant of the record at the front of the queue (R107). -/
def execRecordIssue (s : State) : Answer :=
  happen s (s.chosen = some .journalWriter && s.recordReady) State.grant

/-- CAPTURE: the grant of a merged home read (R37). -/
def execCapture (s : State) : Answer :=
  happen s (s.chosen = some .requestPath && s.pathMerged = some true) State.grant

/-- PASS_THROUGH_GRANT: the grant of a pass-through request (R142). -/
def execPassThroughGrant (s : State) : Answer :=
  happen s (s.chosen = some .requestPath && s.pathMerged = some false) State.grant

/-- HOME_WRITE_ISSUE: the grant of a home write (R123). -/
def execHomeWriteIssue (s : State) : Answer := happen s (s.chosen = some .applyEngine) State.grant

/-- CHECKPOINT_ISSUE: the grant of the first half of a checkpoint's anchor (R131). -/
def execCheckpointIssue (s : State) : Answer :=
  happen s (s.chosen = some .serviceEngine && s.presentsCheckpoint) State.grant

/-- SERVICE_REQUEST_GRANT: the grant of another request of the Service Engine (R138). -/
def execServiceRequestGrant (s : State) : Answer :=
  happen s (s.chosen = some .serviceEngine && !s.presentsCheckpoint) State.grant

/-- REWRITE_ISSUE: the grant of a rewrite of the failed list (R112). -/
def execRewriteIssue (s : State) : Answer :=
  happen s (s.chosen = some .journalWriter && !s.recordReady) State.grant

end Sys2Proof.Machine
end

