-- ==== Sys2Proof/Machine/Completions.lean ====
section
/-! DEFINITION. Completions (R139, R142 to R144): the meanings of the rows of the Journal Writer, the Apply Engine, the
Checkpoint Logic and the request path, of START_OF_APPLY and of DRAIN_COMPLETION. -/

namespace Sys2Proof.Machine

/-! ### Matching a completion to the front of the list (R139) -/

/-- The entry a completion is for: the front of the outstanding list; in a drain no requester receives it (R144). -/
def State.front (s : State) : Option MemEntry := if s.mem.draining then none else s.mem.outstanding.head?

/-- Whether the front entry serves what `f` says. -/
def State.frontServes (s : State) (f : Purpose → Bool) : Bool := s.front.any fun e => f e.purpose

/-- Whether the completion of the front entry is to be ignored. -/
def State.frontIgnored (s : State) : Bool := s.front.any fun e => !e.live

/-- Whether an OK completion carries one byte for each byte of a READ, none for a WRITE (R136). -/
def MemRequest.fits (r : MemRequest) : Completion → Bool
  | .error => true
  | .ok data => data.length = match r.op with
    | .read n => n
    | .write _ => 0

/-- The completion of a write for the requester that `serves` names: the entry leaves the list, and unless it is to be
ignored the requester acts by `f` (R139). -/
def acknowledge (s : State) (serves : Purpose → Bool) (enabled : Bool) (f : State → State) : Answer :=
  happen s (s.frontServes serves && enabled) fun t => if s.frontIgnored then t.dropFront else f t.dropFront

/-- The completion `c` of a request that may be a READ: as `acknowledge`; data that does not match the request breaks what
the memory side promises (R136, R137). `f` also gets the entry's purpose. -/
def complete (s : State) (serves : Purpose → Bool) (c : Completion) (f : Purpose → State → State) : Answer :=
  match s.front with
  | none => .next s.clearOut
  | some e =>
    if e.live && s.run = .running && serves e.purpose && !e.request.fits c then .fault .memoryPromiseBroken
    else happen s (serves e.purpose) fun t => if e.live then f e.purpose t.dropFront else t.dropFront

/-! ### Journal Writer (R109 to R112) -/

def Purpose.isRecord : Purpose → Bool
  | .record => true
  | _ => false

def Purpose.isRewrite : Purpose → Bool
  | .rewrite => true
  | _ => false

/-- A record is durable: the RECORDS counter rises (R109, R112), and a COMMIT reports its group (R91). -/
def State.recordDurable (s : State) (r : IssuedRecord) : State :=
  let s := { s with mgmt := { s.mgmt with records := s.mgmt.records + 1 } }
  if r.kind = .commit then s.sealedEvent r.group else s

/-- The front outstanding record is acknowledged OK (R109). -/
def State.recordOk (s : State) : State :=
  match s.journal.outstanding with
  | [] => s
  | r :: rest =>
    let s := { s with journal := { s.journal with outstanding := rest } }
    ((s.recordDurable r).quiesceTest).continueClear

/-- The kind under which a failed record joins the failed list: FILLER when its group has been discarded (R20, R110). -/
def State.failedKind (s : State) (r : IssuedRecord) : RecordKind :=
  if (s.findGroup r.group).isSome then r.kind else .filler

/-- The front outstanding record fails (R110). -/
def State.recordFailed (s : State) : State :=
  match s.journal.outstanding with
  | [] => s
  | r :: rest =>
    let failed := s.journal.failed ++ [{ r with kind := s.failedKind r }]
    let s : State := { s with journal := { s.journal with outstanding := rest, failed := failed } }
    let s := if r.kind = .commit then s.updateGroup r.group fun g => { g with state := .inDoubt } else s
    s.report .journalWrite none

/-- The rewrite of the front of the failed list was issued by the CLEAR_FAULT that runs. -/
def State.ownsRewrite (s : State) : Bool := s.engine.clear = some (.journal true)

/-- A rewrite completes (R112). -/
def State.rewriteDone (s : State) (st : MemStatus) : State :=
  match st, s.journal.failed with
  | _, [] => s
  | .ok, r :: rest =>
    let s := { s with journal := { s.journal with failed := rest } }
    let s := if s.ownsRewrite then { s with engine := { s.engine with clear := some (.journal false) } } else s
    (s.recordDurable r).continueClear
  | .error, _ :: _ => if s.ownsRewrite then s.failClear else s

/-- RECORD_ACKNOWLEDGEMENT (R109). -/
def execRecordAcknowledgement (s : State) : Answer := acknowledge s Purpose.isRecord true State.recordOk

/-- RECORD_FAILURE (R110). -/
def execRecordFailure (s : State) : Answer := acknowledge s Purpose.isRecord true State.recordFailed

/-- REWRITE_ACKNOWLEDGEMENT (R112). -/
def execRewriteAcknowledgement (st : MemStatus) (s : State) : Answer :=
  acknowledge s Purpose.isRewrite true (State.rewriteDone · st)

/-! ### Apply Engine (R121 to R127) -/

def Purpose.isHomeWrite : Purpose → Bool
  | .homeWrite => true
  | _ => false

/-- The conditions of the start of apply (R121); RESTART and a drain stop the Apply Engine (R135). -/
def State.applyStartable (s : State) : Bool :=
  s.apply.isNone && (s.engine.state = .online || s.engine.state = .quiescing || s.engine.state = .faulted)
    && !s.mem.draining && s.groups.pipeline.head?.any (·.state = .sealed)

/-- The head of the pipeline becomes APPLYING (R121, R122). -/
def State.startApply (s : State) : State :=
  match s.groups.pipeline with
  | [] => s
  | g :: _ =>
    let s := s.updateGroup g.ref fun g => { g with state := .applying }
    { s with apply := some { group := g.ref, nextPos := 0, outstanding := 0, acked := 0, stopped := false } }

/-- START_OF_APPLY (R121). -/
def execStartOfApply (s : State) : Answer := happen s s.applyStartable State.startApply

/-- A home write is acknowledged OK (R124): counted unless the attempt is stopped; the last one retires the group (R125). -/
def State.homeWriteOk (s : State) : State :=
  match s.apply with
  | none => s
  | some a =>
    let acked := if a.stopped then a.acked else a.acked + 1
    let s : State := { s with apply := some { a with outstanding := a.outstanding - 1, acked := acked } }
    let s := if !a.stopped && acked = s.applyLength a then s.retire (s.groupOf a.group) else s
    s.continueClear

/-- A home write fails (R126, R127): the first failure stops the attempt and is reported, or ends the CLEAR_FAULT whose
attempt it is. -/
def State.homeWriteFailed (s : State) : State :=
  match s.apply with
  | none => s
  | some a =>
    let s : State := { s with apply := some { a with outstanding := a.outstanding - 1, stopped := true } }
    let s := if a.stopped then s
      else if s.engine.clear = some (.apply true) then s.failClear
      else s.report .applyWrite none
    s.continueClear

/-- HOME_WRITE_ACKNOWLEDGEMENT (R124). -/
def execHomeWriteAcknowledgement (s : State) : Answer := acknowledge s Purpose.isHomeWrite true State.homeWriteOk

/-- APPLY_FAILURE (R126). -/
def execApplyFailure (s : State) : Answer := acknowledge s Purpose.isHomeWrite true State.homeWriteFailed

/-! ### Checkpoint Logic (R132, R133) -/

def Purpose.isFirstHalf : Purpose → Bool
  | .anchorHalf false _ => true
  | _ => false

def Purpose.isSecondHalf : Purpose → Bool
  | .anchorHalf true _ => true
  | _ => false

/-- Whether the front entry is a half of the rewrite of the retained anchor. -/
def State.frontIsRewrite (s : State) : Bool := s.frontServes fun p => match p with
  | .anchorHalf _ rewrite => rewrite
  | _ => false

/-- How the first half ended of the anchor whose second half is at the front. -/
def State.firstHalf (s : State) : Option MemStatus :=
  if s.frontIsRewrite then s.ckpt.rewrite.bind (·.first) else s.ckpt.inFlight.bind (·.first)

/-- The rewrite was issued by the CLEAR_FAULT that runs. -/
def State.ownsAnchor (s : State) : Bool := s.ckpt.rewrite.any (·.own)

/-- A first half completes (R133): its status is kept for the second half's completion; a failed half of the running
CLEAR_FAULT's own rewrite ends it FAILED (R166). -/
def State.firstHalfDone (s : State) (rewrite : Bool) (st : MemStatus) : State :=
  if rewrite then
    match s.ckpt.rewrite with
    | none => s
    | some w =>
      if w.own || w.secondGranted then
        let s := { s with ckpt := { s.ckpt with rewrite := some { w with first := some st } } }
        if w.own && st = .error then s.failClear else s
      else { s with ckpt := { s.ckpt with rewrite := none } }
  else { s with ckpt := { s.ckpt with inFlight := s.ckpt.inFlight.map fun f => { f with first := some st } } }

/-- Both halves of a checkpoint have been acknowledged OK (R132). -/
def State.checkpointOk (s : State) : State :=
  match s.ckpt.inFlight with
  | none => s
  | some f =>
    let s := (s.landed f.copy f.anchor)
    let s := { s with ckpt := { s.ckpt with inFlight := none } }
    (f.answers.elim s s.answerRequest).distanceTrigger

/-- Both halves of a rewrite have been acknowledged OK (R133): the effects of R132, the retained anchor absent, the anchor
step complete; the rewrite of a CLEAR_FAULT that has ended takes its effects without a step (R166, log entry 12). -/
def State.rewriteOk (s : State) : State :=
  match s.ckpt.retained with
  | none => s
  | some r =>
    let own := s.ownsAnchor
    let s := (s.landed r.copy r.anchor)
    let s := { s with ckpt := { s.ckpt with retained := none, rewrite := none } }
    if own then (s.dropCause .checkpointWrite).finishClear r.answers
    else (r.answers.elim s s.answerRequest).distanceTrigger

/-- A checkpoint fails (R133). -/
def State.checkpointFailed (s : State) : State :=
  match s.ckpt.inFlight with
  | none => s
  | some f =>
    let s := { s with ckpt := { s.ckpt with
      inFlight := none, retained := some { copy := f.copy, anchor := f.anchor, answers := f.answers } } }
    s.report .checkpointWrite f.answers

/-- A rewrite fails (R133): the retained anchor is kept; the CLEAR_FAULT that issued it ends FAILED. -/
def State.rewriteFailed (s : State) : State :=
  let own := s.ownsAnchor
  let s := { s with ckpt := { s.ckpt with rewrite := none } }
  if own then s.failClear else s

/-- CHECKPOINT_ACKNOWLEDGEMENT (R132): the second half completes OK and the first half had. -/
def execCheckpointAcknowledgement (s : State) : Answer :=
  acknowledge s Purpose.isSecondHalf (s.firstHalf = some .ok)
    (if s.frontIsRewrite then State.rewriteOk else State.checkpointOk)

/-- CHECKPOINT_FAILURE (R133): the second half completes with `second`, and one of the halves had an error. -/
def execCheckpointFailure (second : MemStatus) (s : State) : Answer :=
  acknowledge s Purpose.isSecondHalf (second = .error || s.firstHalf = some .error)
    (if s.frontIsRewrite then State.rewriteFailed else State.checkpointFailed)

/-- ANCHOR_FIRST_HALF_COMPLETION (R133). -/
def execAnchorFirstHalfCompletion (st : MemStatus) (s : State) : Answer :=
  acknowledge s Purpose.isFirstHalf true (State.firstHalfDone · s.frontIsRewrite st)

/-! ### Request path (R38, R142, R143) -/

def Purpose.isPassThrough : Purpose → Bool
  | .passThrough _ _ => true
  | _ => false

def Purpose.isHomeRead : Purpose → Bool
  | .homeRead _ _ => true
  | _ => false

/-- The place a request-path request serves is declined MEMORY_ERROR (R143). -/
def State.memoryError (s : State) (st : Stream) (i : Fin 4) : State :=
  match s.place? st i with
  | none => s
  | some p => s.decline st p .memoryError

/-- A pass-through request completes: ready OK with the memory's data, or declined (R63, R142). -/
def State.passDone (s : State) (c : Completion) : Purpose → State
  | .passThrough st i => match c with
    | .ok data => s.makeReady st i (.ok data)
    | .error => s.memoryError st i
  | _ => s

/-- The result of a merged read (R38): the overlay byte where the mask is present, the home byte where it is absent. -/
def mergedBytes (r : Request) (b : Overlay) (home : List Byte) : List Byte :=
  List.zipWith (fun c h => c.getD h) (b.cells.drop (r.addr.toNat % 128)) home

/-- A merged read's buffer moves to MERGED and its response is ready (R36, R38). -/
def Place.merge (home : List Byte) (q : Place) : Place :=
  match q.buffer with
  | none => q
  | some b =>
    let result := mergedBytes q.request b home
    { q with phase := .ready (.ok result), buffer := some { b with state := .merged, result := some result } }

/-- A home read completes: merged, or declined (R38, R41). -/
def State.homeReadDone (s : State) (c : Completion) : Purpose → State
  | .homeRead st i => match c with
    | .ok data => s.updatePlace st i (Place.merge data)
    | .error => s.memoryError st i
  | _ => s

/-- PASS_THROUGH_COMPLETION (R142). -/
def execPassThroughCompletion (c : Completion) (s : State) : Answer :=
  complete s Purpose.isPassThrough c fun p t => t.passDone c p

/-- HOME_READ_DATA_RETURN (R38). -/
def execHomeReadDataReturn (c : Completion) (s : State) : Answer :=
  complete s Purpose.isHomeRead c fun p t => t.homeReadDone c p

/-! ### Drain (R144) -/

/-- DRAIN_COMPLETION (R144): the front entry leaves and its completion is discarded; an empty list completes the drain. -/
def execDrainCompletion (s : State) : Answer :=
  happen s (s.mem.draining && !s.mem.outstanding.isEmpty) fun t => t.dropFront.drainCheck

end Sys2Proof.Machine
end

