-- ==== Sys2Proof/Machine/Commands.lean ====
section
/-! DEFINITION. The command slot's commands (R159, R165 to R178): the meanings of the ten command rows, and of the completions
of FORMAT's writes and DIGEST's reads. -/

namespace Sys2Proof.Machine

/-! ### QUIESCE, RESUME, DISCARD_OPEN, STAGE_FROM_ACTIVE (R167 to R170) -/

/-- FAULTED with ONLINE-side causes only, and at least one (R165, R167). -/
def State.clearable (s : State) : Bool :=
  s.engine.state = .faulted && !s.engine.causes.isEmpty && s.engine.causes.all FaultCause.onlineSide

/-- QUIESCE (R167). -/
def State.quiesce (s : State) : State :=
  match s.engine.state with
  | .online =>
    let s := { s with engine := { s.engine with state := .quiescing } }
    s.quiesceTest.answerAtOnce Command.quiesce.code .done
  | .quiescing | .quiesced => s.answerAtOnce Command.quiesce.code .done
  | .faulted =>
    if s.clearable then
      let s := { s with engine := { s.engine with quiescePending := true } }
      s.answerAtOnce Command.quiesce.code .done
    else s.answerAtOnce Command.quiesce.code .wrongState
  | .recovering | .unformatted => s.answerAtOnce Command.quiesce.code .wrongState

/-- RESUME (R170). -/
def State.resume (s : State) : State :=
  if s.engine.state = .quiesced then
    match profileFault s.engine.staging (journalBase s.abase) s.ringSize with
    | some (item, test) => s.answerAtOnce Command.resume.code .profileInvalid item test
    | none =>
      let s := { s with engine := { s.engine with activation := some s.engine.staging } }
      (s.takeRunning .resume).requestCheckpoint .resume
  else s.answerAtOnce Command.resume.code .wrongState

/-- One stream of DISCARD_OPEN (R168): its OPEN group is discarded, then its held write declined (R82). -/
def State.discardStream (x : State × List Line) (st : Stream) : State × List Line :=
  match x.1.openGroup? st with
  | none => x
  | some g => ((x.1.discardGroup st g .management).declineHeld .discarded st, x.2 ++ x.1.discardReleases g)

/-- DISCARD_OPEN (R168); its COMMAND_DONE is queued after the records of the discards (log entry 11). -/
def State.discardOpen (s : State) : State :=
  if s.engine.state = .online || s.engine.state = .quiescing || s.engine.state = .faulted then
    let x := allStreams.foldl State.discardStream (s, [])
    (if s.openCount = 0 then s else x.1.afterDiscard x.2).answerAtOnce Command.discardOpen.code .done
  else s.answerAtOnce Command.discardOpen.code .wrongState

/-- STAGE_FROM_ACTIVE (R169). -/
def State.stageFromActive (s : State) : State :=
  match s.profile with
  | none => s.answerAtOnce Command.stageFromActive.code .wrongState
  | some p =>
    if s.engine.state = .recovering then s.answerAtOnce Command.stageFromActive.code .wrongState
    else ({ s with engine := { s.engine with staging := p } }).answerAtOnce Command.stageFromActive.code .done

/-- CLEAR_FAULT (R165). -/
def State.clearFault (s : State) : State :=
  if s.clearable then (s.takeRunning .clearFault).journalStep
  else s.answerAtOnce Command.clearFault.code .wrongState

/-! ### DIGEST and ABORT_DIGEST (R173, R174, R178) -/

/-- A DIGEST ends (R174): the CRC register is complemented, the digest registers take the CRC and the bytes processed, and
reads still outstanding will be ignored. -/
def State.closeDigest (s : State) (d : DigestRecord) : State :=
  ({ s with
     service := { s.service with digest := none }
     mgmt := { s.mgmt with digestResult := ~~~d.crc, coveredBytes := d.processed } }).ignore Purpose.isDigestRead

/-- DIGEST's arguments (R187): the start and the length. -/
def State.digestArgs (s : State) : Nat × Nat :=
  let len := (getV s.mgmt.args 1).toNat
  ((getV s.mgmt.args 2).toNat * 2 ^ 32 + (getV s.mgmt.args 0).toNat, if len = 0 then 2 ^ 32 else len)

/-- Whether DIGEST ends BAD_ARGUMENT (R173). -/
def badDigest (start len : Nat) : Bool :=
  start % 32 ≠ 0 || 2 ^ 36 ≤ start || len % 32 ≠ 0 || len < 32 || 2 ^ 32 < len

/-- The limit of a digest that starts at `start` (R173). -/
def State.digestLimit (s : State) (start : Nat) : Nat :=
  match s.engine.state, s.profile with
  | .quiesced, some p =>
    match p.regionAt start with
    | some g => g.stop
    | none =>
      let bases := (p.regions.toList.filter (·.enabled)).map fun g => g.base.toNat
      ((journalBase s.abase :: bases).filter (start < ·)).foldl min (2 ^ 36)
  | _, _ => 2 ^ 36

/-- DIGEST (R173). -/
def State.digest (s : State) : State :=
  let (start, len) := s.digestArgs
  if !(s.engine.state = .quiesced || s.engine.state = .unformatted) then
    s.answerAtOnce Command.digest.code .wrongState
  else if badDigest start len then s.answerAtOnce Command.digest.code .badArgument
  else if s.engine.state = .quiesced && s.inJournalArea start then s.answerAtOnce Command.digest.code .journalArea
  else
    let d : DigestRecord :=
      { crc := crcStart, start := start, next := start, stop := min (start + len) (s.digestLimit start), processed := 0 }
    let s := { s with service := { s.service with digest := some d } }
    s.takeRunning .digest

/-- A running DIGEST ends ABORTED (R174, R178). -/
def State.abortRunningDigest (s : State) : State :=
  match s.service.digest with
  | none => s
  | some d => (s.closeDigest d).endIf .digest .aborted

/-- ABORT_DIGEST (R178): taken in any slot state, never with overrun. -/
def State.abortDigest (s : State) : State :=
  if s.service.digest.isSome then s.abortRunningDigest
  else if s.mgmt.running.isSome then s
  else s.answerAtOnce Command.abortDigest.code .wrongState

/-- A DIGEST that ends DONE (R174, R177): DIGEST_DONE in place of COMMAND_DONE. -/
def State.digestComplete (s : State) (d : DigestRecord) : State :=
  let s := s.closeDigest d
  let s := { s with mgmt := { s.mgmt with running := none, result := { s.mgmt.result with result := .done } } }
  s.pushEvent (.digestDone (~~~d.crc))

/-- A read of DIGEST completes (R174). -/
def State.digestReadDone (s : State) (c : Completion) : State :=
  match s.service.digest with
  | none => s
  | some d =>
    match c with
    | .error => (s.closeDigest d).endIf .digest .failed
    | .ok data =>
      let d := { d with crc := crcFeed d.crc data, processed := d.processed + data.length }
      let s := { s with service := { s.service with digest := some d } }
      if d.stop - d.start ≤ d.processed then s.digestComplete d else s

/-- DIGEST_READ_COMPLETION (R174). -/
def execDigestReadCompletion (c : Completion) (s : State) : Answer :=
  complete s Purpose.isDigestRead c fun _ t => t.digestReadDone c

/-! ### RESTART (R159, R178) -/

/-- Engine Control at RESTART: RECOVERING, the staging profile kept (R159, R162). -/
def EngineControl.restart (e : EngineControl) : EngineControl :=
  { state := .recovering, firstCause := none, causes := [], returnState := none, quiescePending := false,
    staging := e.staging, activation := none, clear := none }

/-- RESTART (R159): the running command ends ABORTED, every unanswered request is RETRACTED, and the drain begins. -/
def State.restart (s : State) : State :=
  let s := s.abortRunningDigest
  let s := s.endCommand .aborted
  let s := (s.takeRunning .restart).retractAll
  let s := { s with engine := s.engine.restart, service := { s.service with format := none } }
  s.beginDrain

/-! ### FORMAT (R171, R172) -/

/-- The recovery record is emptied (R148). -/
def State.withNoRecovery (s : State) : State :=
  { s with service := { s.service with recovery := Recovery.empty } }

/-- FORMAT with its arguments, accepted (R171): in FAULTED the requests are RETRACTED and the drain begins; elsewhere the
checks are made at once. -/
def State.formatAccepted (s : State) (w : FormatWork) : State :=
  if s.engine.state = .faulted then
    let s := (s.takeRunning .format).retractAll
    ({ s with service := { s.service with format := some w } }).beginDrain
  else
    let s := s.withNoRecovery
    match s.formatFault w with
    | some (r, item, test) => s.answerAtOnce Command.format.code r item test
    | none => (s.takeRunning .format).beginFormat w

/-- FORMAT (R171). -/
def State.format (s : State) : State :=
  let code := getV s.mgmt.args 0
  let w : FormatWork :=
    { code := code.setWidth 8, stamp := getV s.mgmt.args 1, checked := false, granted := 0, acked := 0 }
  if !(s.engine.state = .unformatted || s.engine.state = .quiesced || s.engine.state = .faulted) then
    s.answerAtOnce Command.format.code .wrongState
  else if 8 < code.toNat then s.answerAtOnce Command.format.code .badArgument
  else s.formatAccepted w

/-- Engine Control when FORMAT ends, DONE or FAILED (R162, R172). -/
def EngineControl.formatted (e : EngineControl) (state : EngineState) : EngineControl :=
  { state := state, firstCause := none, causes := [], returnState := none, quiescePending := false,
    staging := e.staging, activation := none, clear := none }

/-- FORMAT ends DONE (R172): the new format and profile, the FORMAT values of R119 and R135, ONLINE. -/
def State.formatDone (s : State) (w : FormatWork) : State :=
  let s : State := { s with
    profile := s.engine.activation
    groups := { s.groups with nextGroup := 1 }
    journal := JournalWriter.cleared (some ⟨w.code, w.stamp⟩)
    ckpt := { CheckpointLogic.coldReset with number := 2, lastCopy := some .a }
    engine := s.engine.formatted .online
    service := { s.service with format := none } }
  ((s.pushEvent (.state .online)).endIf .format .done).oweQuiesce

/-- FORMAT ends FAILED (R172): UNFORMATTED, no format and no profile; writes outstanding will be ignored. -/
def State.formatFailed (s : State) : State :=
  let s : State := { s with
    profile := none
    journal := JournalWriter.cleared none
    ckpt := CheckpointLogic.coldReset
    engine := s.engine.formatted .unformatted
    service := { s.service with format := none } }
  ((s.ignore (· == .formatWrite)).endIf .format .failed).oweQuiesce

/-- A write of FORMAT completes (R172). -/
def State.formatWriteDone (s : State) (st : MemStatus) : State :=
  match s.service.format, st with
  | none, _ => s
  | some _, .error => s.formatFailed
  | some w, .ok =>
    let w := { w with acked := w.acked + 1 }
    let s := { s with service := { s.service with format := some w } }
    if w.acked = 4 then s.formatDone w else s

/-- FORMAT_ANCHOR_WRITE_COMPLETION (R172). -/
def execFormatAnchorWriteCompletion (st : MemStatus) (s : State) : Answer :=
  acknowledge s (· == .formatWrite) true (State.formatWriteDone · st)

/-! ### The command rows (R177, R178) -/

/-- UNKNOWN_COMMAND taken: it ends BAD_ARGUMENT (R177). -/
def State.unknown (s : State) (code : Byte) : State := s.answerAtOnce code .badArgument

/-- The write of a command code to the command register (R177, R178, R187). -/
def State.offerCode (s : State) (code : Byte) : State :=
  match code.toNat with
  | 1 => s.offer State.quiesce
  | 2 => s.offer State.resume
  | 3 => s.offer State.discardOpen
  | 4 => s.offer State.clearFault
  | 5 => s.restart
  | 6 => s.offer State.format
  | 7 => s.offer State.digest
  | 8 => s.abortDigest
  | 9 => s.offer State.stageFromActive
  | _ => s.offer (State.unknown · code)

/-- QUIESCE (R167). -/
def execQuiesce (s : State) : Answer := happen s true (State.offer · State.quiesce)

/-- RESUME (R170). -/
def execResume (s : State) : Answer := happen s true (State.offer · State.resume)

/-- DISCARD_OPEN (R168). -/
def execDiscardOpen (s : State) : Answer := happen s true (State.offer · State.discardOpen)

/-- CLEAR_FAULT (R165). -/
def execClearFault (s : State) : Answer := happen s true (State.offer · State.clearFault)

/-- RESTART (R159). -/
def execRestart (s : State) : Answer := happen s true State.restart

/-- FORMAT (R171). -/
def execFormat (s : State) : Answer := happen s true (State.offer · State.format)

/-- DIGEST (R173). -/
def execDigest (s : State) : Answer := happen s true (State.offer · State.digest)

/-- ABORT_DIGEST (R178). -/
def execAbortDigest (s : State) : Answer := happen s true State.abortDigest

/-- STAGE_FROM_ACTIVE (R169). -/
def execStageFromActive (s : State) : Answer := happen s true (State.offer · State.stageFromActive)

/-- UNKNOWN_COMMAND (R177): the code written acts as itself; 1 to 9 are the known commands. -/
def execUnknownCommand (code : Byte) (s : State) : Answer := happen s true (State.offerCode · code)

end Sys2Proof.Machine
end

