-- ==== Sys2Proof/Machine/Management.lean ====
section
/-! DEFINITION. The management port's frames (R175, R176, R180 to R182, R187), whole and bit by bit: the meanings of
EVENT_POP, INT_ENABLE_WRITE, LOST_CLEAR, PROFILE_DATA_WRITE and REGISTER_WRITE. -/

namespace Sys2Proof.Machine

/-- The management port's record changed. -/
def State.withMgmt (s : State) (f : ManagementPort → ManagementPort) : State := { s with mgmt := f s.mgmt }

/-- The completion of a read frame of EVENT0 (R180): the record that was sampled leaves and the words captured with it are
latched; when the queue was empty at the sample nothing leaves and zeros are latched. -/
def State.popCaptured (s : State) (captured : Option Captured) : State :=
  s.withMgmt fun m => match captured with
    | none => { m with latch1 := 0, latch2 := 0, latch3 := 0 }
    | some c => { m with events := m.events.tail, latch1 := c.word1, latch2 := c.word2, latch3 := c.word3 }

/-- A complete read frame of EVENT0 (R180), its sample and its completion in one event: what the register shows is shifted
out, and the frame pops. -/
def State.popEvent (s : State) : State :=
  let t := s.popCaptured s.headWords
  { t with out := { t.out with shifted := some (s.readRegister 0x09) } }

/-- A write to the INT enable register (R182): bit k − 1 enables event kind k (R187). -/
def State.writeIntEnable (s : State) (v : Word) : State := s.withMgmt fun m => { m with intEnable := v.setWidth 8 }

/-- The lost count becomes 0 (R181). -/
def State.clearLost (s : State) : State := s.withMgmt fun m => { m with lost := 0 }

/-- A write to a profile data word (R176): stored into the staging profile, ignored with the active copy selected. -/
def State.writeProfileData (s : State) (w : Fin 4) (v : Word) : State :=
  if s.mgmt.selectActive then s
  else { s with engine := { s.engine with staging := s.engine.staging.store s.mgmt.selectItem w v } }

/-- A write to ARG0 to ARG3 (R176). -/
def State.writeArg (s : State) (i : Fin 4) (v : Word) : State := s.withMgmt fun m => { m with args := setV m.args i v }

/-- A write to profile select: bit 0 the copy, bits 7 to 4 the item (R187). -/
def State.writeSelect (s : State) (v : Word) : State :=
  s.withMgmt fun m => { m with selectActive := v.getLsbD 0, selectItem := (v >>> 4).setWidth 4 }

/-- A complete write frame to register `n` (R176); read-only and unused registers ignore it. -/
def State.writeRegister (s : State) (n : BitVec 6) (v : Word) : State :=
  match n.toNat with
  | 0x02 => s.offerCode (v.setWidth 8)
  | 0x03 => s.writeArg 0 v
  | 0x04 => s.writeArg 1 v
  | 0x05 => s.writeArg 2 v
  | 0x06 => s.writeArg 3 v
  | 0x08 => if v.getLsbD 31 then s.clearLost else s
  | 0x0D => s.writeIntEnable v
  | 0x16 => s.writeSelect v
  | 0x17 => s.writeProfileData 0 v
  | 0x18 => s.writeProfileData 1 v
  | 0x19 => s.writeProfileData 2 v
  | 0x1A => s.writeProfileData 3 v
  | _ => s

/-! ### Frames clocked bit by bit (R175) -/

/-- The frame in progress, or none. -/
def State.withFrame (s : State) (f : Option Frame) : State := s.withMgmt fun m => { m with frame := f }

/-- The bit the part shifts out in the clock that follows these bits of a frame: in bytes 1 to 4 of a read frame the sampled
value, most significant bit first; zero after the fifth byte; elsewhere no rule gives one (log entry 9). -/
def Frame.shiftedBit (f : Frame) : Option Bool :=
  if 40 ≤ f.bits.length then some false else f.sampled.map fun v => v.getMsbD (f.bits.length - 8)

/-- The event that completes byte 0 of a frame (R175, R176, R180): a read frame samples its register, and with EVENT0 the
other words of the oldest record. A sample of the command register uses up one free value. -/
def State.sampleFrame (s : State) (f : Frame) : State :=
  let head := frameHead (frameCommand f.bits)
  if head.read then
    let t := s.withFrame (some { f with
      sampled := some (s.readRegister head.number), captured := if head.number = 0x09 then s.headWords else none })
    if head.number = 0x02 then { t with freeCount := t.freeCount + 1 } else t
  else s.withFrame (some f)

/-- The event that completes the fifth byte of a frame (R175): a write is applied, a read of EVENT0 pops. -/
def State.completeFrame (s : State) (f : Frame) : State :=
  let head := frameHead (frameCommand f.bits)
  if !head.read then s.writeRegister head.number (frameData f.bits)
  else if head.number = 0x09 then s.popCaptured f.captured
  else s

/-- A bit is clocked in while the frame stands at `f`: bits after the fifth byte are ignored (R175). -/
def State.clockInto (s : State) (f : Frame) (mosi : Bool) : State :=
  let s := { s with out := { s.out with miso := f.shiftedBit } }
  if 40 ≤ f.bits.length then s
  else
    let f := { f with bits := f.bits ++ [mosi] }
    if f.bits.length = 8 then s.sampleFrame f
    else if f.bits.length = 40 then (s.withFrame (some f)).completeFrame f
    else s.withFrame (some f)

/-- One event of the serial link (R175): a complete write frame of `v`; the select line asserted, which begins a frame; bit 0 of
`v` clocked in, ignored without a frame; the select line released, which ends the frame. -/
def State.linkEvent (s : State) (v : Word) : FrameEvent → State
  | .write n => s.writeRegister n v
  | .select => s.withFrame (some (s.mgmt.frame.getD { bits := [], sampled := none, captured := none }))
  | .clock => s.mgmt.frame.elim s (s.clockInto · (v.getLsbD 0))
  | .deselect => s.withFrame none

/-! ### The meanings -/

/-- EVENT_POP (R180). -/
def execEventPop (s : State) : Answer := happen s true State.popEvent

/-- INT_ENABLE_WRITE (R182). -/
def execIntEnableWrite (v : Word) (s : State) : Answer := happen s true (State.writeIntEnable · v)

/-- LOST_CLEAR (R181). -/
def execLostClear (s : State) : Answer := happen s true State.clearLost

/-- PROFILE_DATA_WRITE (R176). -/
def execProfileDataWrite (w : Fin 4) (v : Word) (s : State) : Answer := happen s true (State.writeProfileData · w v)

/-- REGISTER_WRITE (R175, R176). -/
def execRegisterWrite (n : FrameEvent) (value : Word) (s : State) : Answer := happen s true (State.linkEvent · value n)

end Sys2Proof.Machine
end

