-- ==== Sys2Proof/Machine/Recovery.lean ====
section
/-! DEFINITION. Start-up and recovery (R147 to R158): the meanings of the four recovery completions. -/

namespace Sys2Proof.Machine

/-- Whether a request of the outstanding list serves recovery. -/
def Purpose.isRecovery (p : Purpose) : Bool :=
  p.isAnchorRead || p.isScanRead || p.isWalkRead || p.isCollectRead || p.isReplayWrite

/-- The recovery record changed. -/
def State.withRecovery (s : State) (f : Recovery → Recovery) : State :=
  { s with service := { s.service with recovery := f s.service.recovery } }

/-- Recovery ends in FAULTED with a recovery-side cause (R158): its outstanding requests will be ignored. -/
def State.recoveryFault (s : State) (c : FaultCause) : State := (s.ignore Purpose.isRecovery).report c none

/-! ### Anchors (R149 to R151) -/

/-- The result of an anchor read. -/
def anchorResult : Completion → AnchorRead
  | .ok data => .ok data
  | .error => .error

/-- The bytes of an anchor read. -/
def AnchorRead.bytes : AnchorRead → List Byte
  | .ok data => data
  | .error => []

/-- The anchor chosen of the two (R150): A, unless B alone is valid or B's number is later. -/
def chooseAnchor (a b : Option Anchor) : Option (Copy × Anchor) :=
  match a, b with
  | some a, some b => if later b.number a.number then some (.b, b) else some (.a, a)
  | some a, none => some (.a, a)
  | none, some b => some (.b, b)
  | none, none => none

/-- Recovery ends without a valid anchor: UNFORMATTED (R150). -/
def State.noAnchor (s : State) : State :=
  let s := s.withRecovery fun r => { r with phase := none }
  let s := { s with profile := none, journal := { s.journal with format := none }, ckpt := CheckpointLogic.coldReset
                    engine := { s.engine with state := .unformatted, firstCause := none, causes := [],
                                              returnState := none, quiescePending := false } }
  s.endIf .restart .done

/-- The chosen anchor is loaded and phase SCAN begins (R151). -/
def State.loadAnchor (s : State) (c : Copy) (a : Anchor) : State :=
  let s := { s with
    profile := some a.profile
    groups := { s.groups with nextGroup := a.nextGroup }
    journal := { s.journal with format := some ⟨a.code, a.stamp⟩, nextCommit := a.nextCommit, head := a.tail,
                                liveTail := a.tail }
    ckpt := { s.ckpt with number := a.number, lastCopy := some c, durableTail := a.tail, retiredThrough := a.through } }
  s.withRecovery fun r =>
    { r with phase := some .scan, chosen := some c, tail := a.tail, through := a.through, cursor := a.tail }

/-- The anchors are tested and one is chosen, in the event of the fourth read (R150). -/
def State.chooseAnchors (s : State) : State :=
  match s.service.recovery.anchorReads.map AnchorRead.bytes with
  | [a0, a1, b0, b1] =>
    match chooseAnchor (readAnchor (a0 ++ a1)) (readAnchor (b0 ++ b1)) with
    | none => s.noAnchor
    | some (c, a) => s.loadAnchor c a
  | _ => s

/-- A read of an anchor completes (R149). -/
def State.anchorReadDone (s : State) (c : Completion) : State :=
  match c with
  | .error =>
    let s := s.withRecovery fun r => { r with anchorReads := [.error] }
    let s := { s with profile := none, journal := { s.journal with format := none } }
    s.recoveryFault .recoveryRead
  | .ok data =>
    (s.withRecovery fun r => { r with anchorReads := r.anchorReads ++ [.ok data] }).chooseAnchors

/-- ANCHOR_READ_COMPLETION (R149). -/
def execAnchorReadCompletion (c : Completion) (s : State) : Answer :=
  complete s Purpose.isAnchorRead c fun _ t => t.anchorReadDone c

/-! ### Closing (R156) -/

/-- The later of a loaded counter and one past the latest number seen (R156). -/
def laterCounter (loaded : Word) : Option Word → Word
  | none => loaded
  | some seen => if later (seen + 1) loaded then seen + 1 else loaded

/-- The walk has reached H: the counters and tails are set and the closing checkpoint is asked for (R156). -/
def State.closeRecovery (s : State) (h : Word) : State :=
  let r := s.service.recovery
  let s := { s with
    groups := { s.groups with nextGroup := laterCounter s.groups.nextGroup r.latestGroup }
    journal := { s.journal with nextCommit := laterCounter s.journal.nextCommit r.latestCommit,
                                head := h + 8, liveTail := h + 8 }
    ckpt := { s.ckpt with durableTail := h + 8, retiredThrough := r.lastReplayed.getD s.ckpt.retiredThrough } }
  (s.withRecovery fun r => { r with phase := some .close }).requestCheckpoint .recovery

/-- The walk goes on from its cursor, or ends replay at H (R153). -/
def State.walkOn (s : State) : State :=
  match s.service.recovery.scannedHead with
  | none => s
  | some h => if s.service.recovery.cursor = h then s.closeRecovery h else s

/-! ### The scan (R152) -/

/-- The record a completed read brings, when it is valid for `seq` (R152). -/
def State.recordOf (s : State) (seq : Word) : Completion → Option Record
  | .ok data => readRecord (s.journal.format.elim 0 fun f => f.stamp) seq data
  | .error => none

/-- The later of two numbers seen, or the first (R152). -/
def latest (seen : Option Word) (n : Word) : Option Word :=
  match seen with
  | none => some n
  | some m => if later n m then some n else some m

/-- What a valid record adds to the latest numbers seen (R152). -/
def Recovery.see (r : Recovery) : Record → Recovery
  | .entry _ group _ _ => { r with latestGroup := latest r.latestGroup group }
  | .commit _ group number _ _ =>
    { r with latestGroup := latest r.latestGroup group, latestCommit := latest r.latestCommit number }
  | .filler => r

/-- H is fixed and phase REPLAY begins (R152, R153); an empty range ends replay in the same event. -/
def State.fixHead (s : State) (h : Word) : State :=
  ((s.ignore Purpose.isScanRead).withRecovery fun r =>
    { r with phase := some .replay, scannedHead := some h, cursor := r.tail }).walkOn

/-- The record read for `seq` is examined (R152). -/
def State.scanDone (s : State) (seq : Word) (c : Completion) : State :=
  match s.recordOf seq c with
  | some x =>
    let s := s.withRecovery fun r => ({ r with cursor := seq + 1 }).see x
    if (seq + 1 - s.service.recovery.tail).toNat = s.ringSize then s.fixHead (seq + 1) else s
  | none => if c = .error then s.recoveryFault .recoveryMismatch else s.fixHead seq

/-- SCAN_READ_COMPLETION (R152). -/
def execScanReadCompletion (c : Completion) (s : State) : Answer :=
  complete s Purpose.isScanRead c fun p t => match p with
    | .scanRead seq => t.scanDone seq c
    | _ => t

/-! ### Replay (R153 to R155) -/

/-- A group has been replayed in full (R155): slots and descriptor are free again and the walk resumes. -/
def State.replayed (s : State) (g : Group) : State :=
  let s := { s with groups := { s.groups with replaying := none }, pool := s.pool.release g.entries
                    service := { s.service with replay := none } }
  (s.withRecovery fun r => { r with lastReplayed := g.commitNumber, groupsReplayed := r.groupsReplayed + 1 }).walkOn

/-- The collection has reached the COMMIT: the count check (R154); a group without slots is replayed at once. -/
def State.countCheck (s : State) (p : Replay) : State :=
  match s.groups.replaying with
  | none => s
  | some g =>
    if p.matched = p.entryCount.toNat && g.entries.length = p.slotCount.toNat then
      let s := { s with service := { s.service with replay := some { p with writing := true } } }
      if g.entries.isEmpty then s.replayed g else s
    else s.recoveryFault .recoveryMismatch

/-- The collection goes on, or is checked once it has reached the COMMIT (R154). -/
def State.collectOn (s : State) (p : Replay) : State :=
  let s := { s with service := { s.service with replay := some p } }
  if p.cursor = p.seq then s.countCheck p else s

/-- The descriptor a replay takes, filled from the COMMIT (R23). -/
def replayGroup (ref : Nat) (stream : Byte) (number commit entries : Word) : Group :=
  { ref := ref, number := number, stream := BitVec.toFin (stream.setWidth 3), state := .applying, entries := [],
    recordCount := entries, firstRecord := none, commitNumber := some commit, commitResponse := none }

/-- The walk pauses at a COMMIT to be replayed: its group's collection begins (R153, R154). The walk's reads in flight are
ignored, an error among them too, and their positions are read again when the walk resumes (log entry 18). -/
def State.beginReplay (s : State) (seq : Word) (stream : Byte) (number commit entries slots : Word) : State :=
  let s := s.ignore Purpose.isWalkRead
  let s := { s with groups := { s.groups with
    replaying := some (replayGroup s.groups.nextRef stream number commit entries), nextRef := s.groups.nextRef + 1 } }
  s.collectOn { seq := seq, stream := stream, entryCount := entries, slotCount := slots,
                cursor := s.service.recovery.tail, matched := 0, writing := false, nextPos := 0, acked := 0 }

/-- A record of the walk (R153). -/
def State.walkDone (s : State) (seq : Word) (c : Completion) : State :=
  match s.recordOf seq c with
  | none => s.recoveryFault .recoveryMismatch
  | some x =>
    let s := s.withRecovery fun r => { r with cursor := seq + 1 }
    match x with
    | .commit stream number commit entries slots =>
      if later commit s.service.recovery.through then s.beginReplay seq stream number commit entries slots else s.walkOn
    | .entry _ _ _ _ => s.walkOn
    | .filler => s.walkOn

/-- A matching ENTRY of the collection (R154): into the slot of its line, or a new slot while the list is shorter than the
COMMIT's slot count; none when it would grow longer, or no slot is free. -/
def State.collectEntry (s : State) (g : Group) (slots : Word) (l : Line) (cells : List (Option Byte)) : Option State :=
  let x : Slot := { line := l, cells := cells, group := g.ref }
  match s.slotFor g l with
  | some id => some { s with pool := s.pool.put id x }
  | none =>
    match s.pool.free with
    | [] => none
    | id :: free =>
      let g := { g with entries := g.entries ++ [id] }
      if slots.toNat < g.entries.length then none
      else some { s with groups := { s.groups with replaying := some g }
                         pool := ({ s.pool with free := free }).put id x }

/-- A record of a collection (R154). -/
def State.collectDone (s : State) (seq : Word) (c : Completion) : State :=
  match s.service.replay, s.groups.replaying, s.recordOf seq c with
  | some p, some g, some x =>
    let p := { p with cursor := seq + 1 }
    match x with
    | .entry stream number l cells =>
      if stream = p.stream && number = g.number then
        match s.collectEntry g p.slotCount l cells with
        | some s => s.collectOn { p with matched := p.matched + 1 }
        | none => s.recoveryFault .recoveryMismatch
      else s.collectOn p
    | .commit _ _ _ _ _ => s.collectOn p
    | .filler => s.collectOn p
  | some _, some _, none => s.recoveryFault .recoveryMismatch
  | _, _, _ => s

/-- A read of the walk or of a collection. -/
def Purpose.isWalk (p : Purpose) : Bool := p.isWalkRead || p.isCollectRead

/-- WALK_READ_COMPLETION (R153, R154). -/
def execWalkReadCompletion (c : Completion) (s : State) : Answer :=
  complete s Purpose.isWalk c fun p t => match p with
    | .walkRead seq => t.walkDone seq c
    | .collectRead seq => t.collectDone seq c
    | _ => t

/-- A replay write is acknowledged OK (R155). -/
def State.replayWriteOk (s : State) : State :=
  match s.service.replay, s.groups.replaying with
  | some p, some g =>
    let p := { p with acked := p.acked + 1 }
    let s := { s with service := { s.service with replay := some p } }
    if p.acked = g.entries.length then s.replayed g else s
  | _, _ => s

/-- REPLAY_WRITE_COMPLETION (R155). -/
def execReplayWriteCompletion (st : MemStatus) (s : State) : Answer :=
  acknowledge s Purpose.isReplayWrite true fun t => match st with
    | .ok => t.replayWriteOk
    | .error => t.recoveryFault .replayWrite

end Sys2Proof.Machine
end

