-- ==== Sys2Proof/Machine/Examine.lean ====
section
/-! DEFINITION. The examination of a request: classification (R53 to R60), the conflict test and cycle check (R27, R68, R69),
the space checks (R16, R75 to R80), and the effect of each outcome. -/

namespace Sys2Proof.Machine

/-- What an examination decides. -/
inductive Verdict where
  /-- handed to the Memory Port (R63), after the cancel action if `cancel` (R60) -/
  | pass (cancel : Bool)
  /-- a merged read (R54) -/
  | merged
  /-- a zero-enable write, answered OK (R55) -/
  | zeroEnable
  | decline (reason : DeclineReason)
  /-- held (R66); `want`: the examination requests a checkpoint (R78) -/
  | hold (kind : HoldKind) (waits : List Stream) (want : Bool)
  /-- the stream's OPEN group, if any, is discarded and the write declined (R16, R80) -/
  | discard (why : DiscardReason) (reason : DeclineReason)
  | take (commit : Bool)
  deriving DecidableEq, Repr

/-! ### Conflicts -/

/-- The owner of a line, when it is another stream than `st` (R27). -/
def State.otherOwner (s : State) (st : Stream) (l : Line) : Option Stream :=
  match s.entry l with
  | none => none
  | some e => if e.owner = some st then none else e.owner

/-- The wait set (R68): every other stream that owns a visited line. -/
def State.waitSet (s : State) (st : Stream) (r : Request) : List Stream :=
  allStreams.filter fun o => r.visited.any fun l => s.otherOwner st l == some o

/-- The wait set of a stream's held write, when its hold kind is CONFLICT (R69). -/
def State.followed (s : State) (o : Stream) : List Stream :=
  match getV s.holds o with
  | none => []
  | some h => if h.kind = .conflict then h.waitSet else []

/-- One step of the cycle check (R69). -/
def State.reachStep (s : State) (reached : List Stream) : List Stream :=
  allStreams.filter fun o => reached.contains o || reached.any fun q => (s.followed q).contains o

/-- The streams reached in at most `n` steps. -/
def State.reach (s : State) : Nat → List Stream → List Stream
  | 0, reached => reached
  | n + 1, reached => s.reach n (s.reachStep reached)

/-- The cycle check (R69): 7 steps at most. -/
def State.closesCycle (s : State) (st : Stream) (waits : List Stream) : Bool := (s.reach 7 waits).contains st

/-! ### Space -/

/-- A commit write: an enabled byte in the stream's own commit word (R59). -/
def isCommitWrite (e : StreamEntry) (r : Request) : Bool := e.enabled && r.touches e.commitWord

/-- The new slots (R75): the visited lines that the stream's OPEN group does not hold. -/
def State.newSlots (s : State) (st : Stream) (r : Request) : Nat :=
  match s.openGroup? st with
  | none => r.visited.length
  | some g => (r.visited.filter fun l => (s.slotFor g l).isNone).length

/-- The length of the entry list of the stream's OPEN group. -/
def State.openLength (s : State) (st : Stream) : Nat := (s.openGroup? st).elim 0 fun g => g.entries.length

/-- Short of slots (R77). -/
def State.shortSlots (s : State) (st : Stream) (r : Request) : Bool := s.freeSlots < s.newSlots st r

/-- Short of record-queue places (R75, R77). -/
def State.shortQueue (s : State) (r : Request) (commit : Bool) : Bool :=
  32 < s.journal.queue.length + (r.visited.length + bit commit)

/-- Short of ring positions (R75, R77, R116). -/
def State.shortRing (s : State) (st : Stream) (r : Request) : Bool :=
  s.ringSize < s.distance + s.claims + (r.visited.length + bit (s.openGroup? st).isNone)

/-- Short of a pipeline descriptor (R77). -/
def State.shortPipeline (s : State) (commit : Bool) : Bool := commit && 32 ≤ s.pipelineInUse

/-- Relief is pending (R78); `queueShort`: the write is short of record-queue places. -/
def State.reliefPending (s : State) (queueShort : Bool) : Bool :=
  s.groups.pipeline.any (fun g => g.state = .sealing || g.state = .sealed || g.state = .applying)
    || s.ckpt.inFlight.isSome || later s.journal.liveTail s.ckpt.durableTail
    || (queueShort && !s.journal.queue.isEmpty)

/-- The space checks (R75): entry limit (R16), open reserve (R76), shortage (R77 to R80). -/
def State.spaceChecks (s : State) (p : Profile) (e : StreamEntry) (st : Stream) (r : Request) : Verdict :=
  let commit := isCommitWrite e r
  if e.entryLimit.toNat < s.openLength st + s.newSlots st r then .discard .groupLimit .groupLimit
  else if (s.openGroup? st).isNone && s.freeSlots < s.newSlots st r + p.openReserve.toNat then .hold .space [] false
  else
    let slots := s.shortSlots st r
    let queue := s.shortQueue r commit
    let ring := s.shortRing st r
    let pipe := s.shortPipeline commit
    if !(slots || queue || ring || pipe) then .take commit
    else if s.reliefPending queue then
      .hold (if slots || queue || ring then .space else .pipeline) []
        (later s.journal.liveTail s.ckpt.durableTail && s.ckpt.inFlight.isNone && ring)
    else .discard .overflow .overflow

/-- The journaled path (R58): the conflict test, then the space checks. -/
def State.journaledPath (s : State) (p : Profile) (e : StreamEntry) (st : Stream) (r : Request) : Verdict :=
  let waits := s.waitSet st r
  if waits.isEmpty then s.spaceChecks p e st r
  else if s.closesCycle st waits then .decline .conflictCycle
  else .hold .conflict waits false

/-! ### Classification -/

/-- A write with an enabled byte in an enabled region (R57). -/
def State.classifyProtected (s : State) (p : Profile) (g : Region) (st : Stream) (r : Request) : Verdict :=
  let e := getV p.streams st
  if !g.mask.getLsbD st.val then .decline .writeDenied
  else if !e.enabled then .decline .streamOff
  else if s.engine.state = .faulted then .decline .engineFault
  else if s.engine.state = .quiesced then .hold .quiesce [] false
  else if s.engine.state = .quiescing && (s.openGroup? st).isNone then .hold .quiesce [] false
  else s.journaledPath p e st r

/-- Whether a write touches the writing stream's own cancel word (R56). -/
def touchesCancel (e : StreamEntry) (r : Request) : Bool := e.enabled && e.cancel.any r.touches

/-- A READ that has passed the tests of R53 (R54). -/
def State.classifyRead (s : State) (p : Profile) (r : Request) : Verdict :=
  if (p.regionAt r.first).isNone then .pass false
  else if s.engine.state = .faulted && !s.engine.causes.any FaultCause.onlineSide then .decline .engineFault
  else .merged

/-- A WRITE that has passed the tests of R53 (R55 to R57). -/
def State.classifyWrite (s : State) (p : Profile) (st : Stream) (r : Request) : Verdict :=
  if !r.hasEnabled then .zeroEnable
  else match p.regionAt r.first with
    | none => .pass (touchesCancel (getV p.streams st) r)
    | some g => s.classifyProtected p g st r

/-- The kind of a request (R43). -/
def Op.isRead : Op → Bool
  | .read _ => true
  | .write _ => false

/-- Classification, in the order of R53. Without a profile only UNFORMATTED passes; RECOVERING admits nothing and FAULTED
declines ENGINE_FAULT at test 2, the only other states without one. -/
def State.classify (s : State) (st : Stream) (r : Request) : Verdict :=
  if s.engine.state = .unformatted then .pass false
  else match s.profile with
    | none => .decline .engineFault
    | some p =>
      if r.crossesBlock then .decline .blockCrossing
      else if s.touchesJournal r then .decline .journalArea
      else if Op.isRead r.op then s.classifyRead p r
      else s.classifyWrite p st r

/-! ### The effect of each outcome -/

/-- A request is handed to the request-path queue (R63, R138). -/
def State.handOver (s : State) (st : Stream) (p : Place) (merged : Bool) : State :=
  let r : PathRequest := { stream := st, place := p.index, merged := merged,
                           request := { addr := p.request.addr, op := p.request.op } }
  { s with mem := { s.mem with path := s.mem.path ++ [r] } }

/-- A pass-through request: the cancel action first, when it has one (R60, R63). -/
def State.passThrough (s : State) (st : Stream) (p : Place) (cancel : Bool) : State :=
  let s := s.endHold st
  let s := if cancel then s.discardOpenGroup st .cancel else s
  (s.handOver st p false).updatePlace st p.index fun q => { q with phase := .passed }

/-- An overlay buffer in state WAITING (R36). -/
def newOverlay (r : Request) : Overlay :=
  { state := .waiting, block := r.addr.toNat / 128 * 128, cells := List.replicate 128 none, result := none }

/-- A merged read at its admission (R36, R54). -/
def State.mergedRead (s : State) (st : Stream) (p : Place) : State :=
  (s.handOver st p true).updatePlace st p.index fun q =>
    { q with phase := .reading, buffer := some (newOverlay p.request) }

/-- The hold of an examination, and the checkpoint it requests (R66, R78). -/
def State.park (s : State) (st : Stream) (p : Place) (kind : HoldKind) (waits : List Stream) (want : Bool) : State :=
  let s := s.holdWrite st p.index kind waits
  if want then s.wantCheckpoint else s

/-- The effect of a verdict on the request in place `p` of stream `st`. -/
def State.act (s : State) (st : Stream) (p : Place) : Verdict → State
  | .pass cancel => s.passThrough st p cancel
  | .merged => s.mergedRead st p
  | .zeroEnable => (s.endHold st).makeReady st p.index (.ok [])
  | .decline reason => (s.endHold st).decline st p reason
  | .hold kind waits want => s.park st p kind waits want
  | .discard why reason => ((s.endHold st).discardOpenGroup st why).decline st p reason
  | .take commit => s.takeWrite st p commit

/-- The examination of the request in place `p`: classified in full, then acted on (R46, R58). -/
def State.examine (s : State) (st : Stream) (p : Place) : State := s.act st p (s.classify st p.request)

end Sys2Proof.Machine
end

