-- ==== Sys2Proof/Machine/RequestPort.lean ====
section
/-! DEFINITION. The request port's own events: the meanings of REQUEST_TAKE, ADMISSION, RE_EXAMINATION and HOLD_EXPIRY. -/

namespace Sys2Proof.Machine

/-- A FORMAT command runs: nothing is taken, admitted or re-examined (R45, R46, R74). -/
def State.formatRuns (s : State) : Bool := s.mgmt.running = some .format

/-- The port takes a request of this stream (R45). -/
def State.takes (s : State) (st : Stream) : Bool :=
  s.engine.state != .recovering && !s.formatRuns && s.taken st < 4

/-- A request gets the next place of its stream's queue (R45, R46). -/
def State.takeRequest (s : State) (r : Request) : State :=
  let p := getV s.ports r.stream
  let place : Place := { index := p.nextIndex, request := r, phase := .waiting, buffer := none }
  { s with ports := setV s.ports r.stream { places := p.places ++ [place], nextIndex := p.nextIndex + 1 } }

/-- REQUEST_TAKE (R45). A length other than 1 to 128 cannot reach the part (R43): such a term is no request. -/
def execRequestTake (r : Request) (s : State) : Answer :=
  if r.wf then happen s (s.takes r.stream) (State.takeRequest · r) else .refused .noSuchRequest

/-- Whether a place blocks its stream's admission (R46): a held write, or a merged read whose home read is not granted. -/
def Place.blocks (q : Place) : Bool :=
  q.phase = .held || (q.phase = .reading && q.buffer.any (·.state = .waiting))

/-- The stream's next request: the oldest not yet admitted (R46). -/
def State.nextRequest (s : State) (st : Stream) : Option Place :=
  (getV s.ports st).places.find? fun q => q.phase = .waiting

/-- Nothing blocks the stream's admission (R46). -/
def State.admits (s : State) (st : Stream) : Bool :=
  s.engine.state != .recovering && !s.formatRuns && !(getV s.ports st).places.any Place.blocks

/-- The stream's next request is examined. -/
def State.admitNext (s : State) (st : Stream) : State :=
  match s.nextRequest st with
  | none => s
  | some p => s.examine st p

/-- ADMISSION (R46). -/
def execAdmission (st : Stream) (s : State) : Answer :=
  happen s (s.admits st && (s.nextRequest st).isSome) (State.admitNext · st)

/-- The stream's held write is owed a re-examination (R67). -/
def State.owed (s : State) (st : Stream) : Bool := (getV s.holds st).any fun h => 0 < h.due

/-- One owed re-examination of the stream's held write is made. -/
def State.payDue (s : State) (st : Stream) (h : HeldWrite) : State :=
  { s with holds := setV s.holds st (some { h with due := h.due - 1 }) }

/-- The held write is examined in full again (R58, R67). -/
def State.reExamine (s : State) (st : Stream) : State :=
  match getV s.holds st with
  | none => s
  | some h =>
    match s.place? st h.place with
    | none => s.payDue st h
    | some p => (s.payDue st h).examine st p

/-- RE_EXAMINATION (R67); while FORMAT runs none is made (R74). -/
def execReExamination (st : Stream) (s : State) : Answer :=
  happen s (s.owed st && !s.formatRuns) (State.reExamine · st)

/-- The timebase has reached the deadline of the stream's held write (R73). -/
def State.expired (s : State) (st : Stream) : Bool :=
  (getV s.holds st).any fun h => h.deadline.any fun t => t ≤ s.now

/-- HOLD_EXPIRY (R73). -/
def execHoldExpiry (st : Stream) (s : State) : Answer :=
  happen s (s.expired st) (State.declineHeld · .holdExpired st)

end Sys2Proof.Machine
end

