-- ==== Sys2Proof/Machine/Reset.lean ====
section
/-! DEFINITION. Pins and power (R147, R161): the meanings of RESET_ASSERT, RESET_RELEASE and POWER_LOSS. -/

namespace Sys2Proof.Machine

/-- RESET_ASSERT (R147): while it lasts the part takes nothing, issues nothing and ignores completions and frames. -/
def execResetAssert (s : State) : Answer := .next { s.clearOut with run := .inReset }

/-- The cold-reset values with this level on ABASE; the queue of waiting commands and the count of free values stay. -/
def State.resetTo (s : State) (abase : BitVec 4) : State :=
  { State.coldReset abase with pending := s.pending, freeCount := s.freeCount }

/-- RESET_RELEASE (R147): every block takes its cold-reset values and ABASE is latched. A release with the pin not asserted
before it stands for an assertion and its release. -/
def execResetRelease (abase : BitVec 4) (s : State) : Answer := .next (s.resetTo abase)

/-- POWER_LOSS (R161): the volatile state is gone; what the part holds next is set at the release of RESET. -/
def execPowerLoss (s : State) : Answer := .next { s.resetTo s.abase with run := .powerOff }

end Sys2Proof.Machine
end

