-- ==== Sys2Proof/Machine/Dispatch.lean ====
section
/-! DEFINITION. The effect of each command on everything but the queue: one arm for each row of the table. -/

namespace Sys2Proof.Machine

def exec (i : Instr) (s : State) : Host.Outcome State Fault Refusal :=
  match i with
  | .resetAssert => Sys2Proof.Machine.execResetAssert s
  | .resetRelease abase => Sys2Proof.Machine.execResetRelease abase s
  | .powerLoss => Sys2Proof.Machine.execPowerLoss s
  | .requestTake r => Sys2Proof.Machine.execRequestTake r s
  | .admission st => Sys2Proof.Machine.execAdmission st s
  | .reExamination st => Sys2Proof.Machine.execReExamination st s
  | .holdExpiry st => Sys2Proof.Machine.execHoldExpiry st s
  | .memoryGrant => Sys2Proof.Machine.execMemoryGrant s
  | .recordIssue => Sys2Proof.Machine.execRecordIssue s
  | .capture => Sys2Proof.Machine.execCapture s
  | .passThroughGrant => Sys2Proof.Machine.execPassThroughGrant s
  | .homeWriteIssue => Sys2Proof.Machine.execHomeWriteIssue s
  | .checkpointIssue => Sys2Proof.Machine.execCheckpointIssue s
  | .serviceRequestGrant => Sys2Proof.Machine.execServiceRequestGrant s
  | .rewriteIssue => Sys2Proof.Machine.execRewriteIssue s
  | .recordAcknowledgement => Sys2Proof.Machine.execRecordAcknowledgement s
  | .recordFailure => Sys2Proof.Machine.execRecordFailure s
  | .rewriteAcknowledgement st => Sys2Proof.Machine.execRewriteAcknowledgement st s
  | .startOfApply => Sys2Proof.Machine.execStartOfApply s
  | .homeWriteAcknowledgement => Sys2Proof.Machine.execHomeWriteAcknowledgement s
  | .applyFailure => Sys2Proof.Machine.execApplyFailure s
  | .checkpointAcknowledgement => Sys2Proof.Machine.execCheckpointAcknowledgement s
  | .checkpointFailure second => Sys2Proof.Machine.execCheckpointFailure second s
  | .passThroughCompletion c => Sys2Proof.Machine.execPassThroughCompletion c s
  | .homeReadDataReturn c => Sys2Proof.Machine.execHomeReadDataReturn c s
  | .drainCompletion => Sys2Proof.Machine.execDrainCompletion s
  | .anchorReadCompletion c => Sys2Proof.Machine.execAnchorReadCompletion c s
  | .scanReadCompletion c => Sys2Proof.Machine.execScanReadCompletion c s
  | .walkReadCompletion c => Sys2Proof.Machine.execWalkReadCompletion c s
  | .replayWriteCompletion st => Sys2Proof.Machine.execReplayWriteCompletion st s
  | .formatAnchorWriteCompletion st => Sys2Proof.Machine.execFormatAnchorWriteCompletion st s
  | .digestReadCompletion c => Sys2Proof.Machine.execDigestReadCompletion c s
  | .quiesce => Sys2Proof.Machine.execQuiesce s
  | .resume => Sys2Proof.Machine.execResume s
  | .discardOpen => Sys2Proof.Machine.execDiscardOpen s
  | .clearFault => Sys2Proof.Machine.execClearFault s
  | .restart => Sys2Proof.Machine.execRestart s
  | .format => Sys2Proof.Machine.execFormat s
  | .digest => Sys2Proof.Machine.execDigest s
  | .abortDigest => Sys2Proof.Machine.execAbortDigest s
  | .stageFromActive => Sys2Proof.Machine.execStageFromActive s
  | .unknownCommand code => Sys2Proof.Machine.execUnknownCommand code s
  | .eventPop => Sys2Proof.Machine.execEventPop s
  | .intEnableWrite value => Sys2Proof.Machine.execIntEnableWrite value s
  | .lostClear => Sys2Proof.Machine.execLostClear s
  | .profileDataWrite w value => Sys2Proof.Machine.execProfileDataWrite w value s
  | .registerWrite n value => Sys2Proof.Machine.execRegisterWrite n value s
  | .anchorFirstHalfCompletion st => Sys2Proof.Machine.execAnchorFirstHalfCompletion st s

end Sys2Proof.Machine
end

