-- ==== Sys2Proof/Safety.lean ====
section
/-! DEFINITION. What statements about the part speak of: the answer of a command, what an event leaves unchanged, and the
laws every step keeps. -/

namespace Sys2Proof.Machine

/-! ### Answers -/

/-- The command answers a next state, and `P` holds of it. -/
def Leads (c : Instr) (s : State) (P : State → Prop) : Prop := ∃ t, exec c s = .next t ∧ P t

/-- No response that is ready stands at the front of a stream's queue: it has left (R47). -/
def NoReadyFront (s : State) : Prop :=
  ∀ st : Stream, ∀ p, (getV s.ports st).places.head? = some p → ∀ status, p.phase ≠ .ready status

/-- The part runs, and every response that could leave has left. -/
def Live (s : State) : Prop := s.run = .running ∧ NoReadyFront s

/-- The request in place `p` has this response: it left in this event, or waits behind an earlier one (R47). -/
def Answered (t : State) (st : Stream) (p : Place) (status : Status) : Prop :=
  ⟨p.request.stream, p.request.tag, status⟩ ∈ t.out.responses
    ∨ ∃ q ∈ (getV t.ports st).places, q.index = p.index ∧ q.phase = .ready status

/-- The effects of a decline (R62). -/
def Declined (s t : State) (st : Stream) (p : Place) (reason : DeclineReason) : Prop :=
  Answered t st p (.declined reason)
    ∧ t.mgmt = ({ s.mgmt with declines := s.mgmt.declines + 1 }).push
        (.decline st p.request.addr reason p.request.tag)

/-! ### What an event leaves unchanged -/

/-- The Group Table, the Slot Pool and the Line Index are unchanged. -/
def SameTables (s t : State) : Prop := t.groups = s.groups ∧ t.pool = s.pool ∧ t.index = s.index

/-- The Journal Writer, the Apply Engine and the Checkpoint Logic are unchanged. -/
def SameRing (s t : State) : Prop := t.journal = s.journal ∧ t.apply = s.apply ∧ t.ckpt = s.ckpt

/-- Engine Control and the active profile are unchanged. -/
def SameEngine (s t : State) : Prop := t.engine = s.engine ∧ t.profile = s.profile

/-- The works of the Service Engine are unchanged. -/
def SameService (s t : State) : Prop :=
  t.service.recovery = s.service.recovery ∧ t.service.replay = s.service.replay ∧ t.service.format = s.service.format
    ∧ t.service.digest = s.service.digest

/-- The request port and the Hold Unit are unchanged, and no response leaves. -/
def SamePorts (s t : State) : Prop := t.ports = s.ports ∧ t.holds = s.holds ∧ t.out.responses = []

/-- The request ports of the other streams are unchanged. -/
def OtherPorts (s t : State) (st : Stream) : Prop := ∀ o : Stream, o ≠ st → getV t.ports o = getV s.ports o

/-- The pins, the timebase and the queue of waiting commands are unchanged. -/
def SamePins (s t : State) : Prop := t.run = s.run ∧ t.abase = s.abase ∧ t.now = s.now ∧ t.pending = s.pending

/-- The whole state but the outputs is unchanged. -/
def Untouched (s t : State) : Prop := t = { s with out := Outputs.none }

/-- `t` is `u` but for the outputs, the order in which the Service Engine's works became ready (R138) and the count of free
values: an effect and its frame in one. -/
def Becomes (t u : State) : Prop :=
  t = { u with out := t.out, service := { u.service with readyOrder := t.service.readyOrder }, freeCount := t.freeCount }

/-- The places of the stream are those of `s` changed by `f`; the ready ones at the front have left, in order (R47). -/
def Settles (s t : State) (st : Stream) (f : Place → Place) : Prop :=
  (getV t.ports st).nextIndex = (getV s.ports st).nextIndex
    ∧ (getV t.ports st).places = (departures ((getV s.ports st).places.map f)).2
    ∧ t.out.responses = (departures ((getV s.ports st).places.map f)).1 ∧ OtherPorts s t st

/-- The response of place `i` becomes ready; its overlay buffer stays. -/
def Place.answer (i : Fin 4) (status : Status) (q : Place) : Place :=
  if q.index = i then { q with phase := .ready status } else q

/-- The response of place `i` becomes ready DECLINED; its overlay buffer is free (R41, R62). -/
def Place.refuse (i : Fin 4) (reason : DeclineReason) (q : Place) : Place :=
  if q.index = i then { q with phase := .ready (.declined reason), buffer := none } else q

/-- What stands on the ports when one memory request is issued and nothing else happens there. -/
def onlyIssue (r : MemRequest) : Outputs := { responses := [], issued := some r, shifted := none }

/-! ### Premises -/

/-- The completion that comes in is for the live entry `e`, outside a drain (R139, R144). -/
def Awaits (s : State) (e : MemEntry) (rest : List MemEntry) : Prop :=
  s.mem.outstanding = e :: rest ∧ e.live = true ∧ s.mem.draining = false

/-- The next request of the stream is in place `p` and nothing blocks its admission (R46). -/
def Admissible (s : State) (st : Stream) (p : Place) : Prop := s.admits st = true ∧ s.nextRequest st = some p

/-- The command examines the request in place `p` (R46, R58): the admission of the stream's next request, which finds no held
write, or an owed re-examination of its held write. -/
def Examines (s : State) (c : Instr) (st : Stream) (p : Place) : Prop :=
  c = .admission st ∧ Admissible s st p ∧ getV s.holds st = none
    ∨ c = .reExamination st ∧ s.formatRuns = false
      ∧ ∃ h, getV s.holds st = some h ∧ 0 < h.due ∧ s.place? st h.place = some p

/-- The arbiter grants requester `r`, by rotation or by R141 (R140). -/
def Granted (s : State) (r : Requester) (byRotation : Bool) : Prop := s.arbiterChoice = some (r, byRotation)

/-- Where the rotation pointer stands after a grant (R140, R141). -/
def State.pointerAfter (s : State) (r : Requester) (byRotation : Bool) : Requester :=
  if byRotation then r else s.mem.pointer

/-- A request has passed the tests of R53 under the active profile `pr`. -/
def PastFirstTests (s : State) (pr : Profile) (r : Request) : Prop :=
  s.profile = some pr ∧ s.engine.state ≠ .recovering ∧ s.engine.state ≠ .unformatted
    ∧ r.crossesBlock = false ∧ s.touchesJournal r = false

/-- A WRITE with an enabled byte, in the enabled region `g` of the active profile `pr`, past the tests of R53. -/
def ProtectedWrite (s : State) (pr : Profile) (g : Region) (r : Request) : Prop :=
  PastFirstTests s pr r ∧ Op.isRead r.op = false ∧ r.hasEnabled = true ∧ pr.regionAt r.first = some g

/-- A protected write that reaches the journaled path (R57). -/
def Journaled (s : State) (pr : Profile) (g : Region) (st : Stream) (r : Request) : Prop :=
  ProtectedWrite s pr g r ∧ g.mask.getLsbD st.val = true ∧ (getV pr.streams st).enabled = true
    ∧ (s.engine.state = .online ∨ s.engine.state = .quiescing ∧ (s.openGroup? st).isSome)

/-- The write is free of conflict: every visited line is free or its own (R27). -/
def ConflictFree (s : State) (st : Stream) (r : Request) : Prop := s.waitSet st r = []

/-- The write passes the entry limit and the open reserve (R16, R76). -/
def WithinLimits (s : State) (pr : Profile) (st : Stream) (r : Request) : Prop :=
  s.openLength st + s.newSlots st r ≤ (getV pr.streams st).entryLimit.toNat
    ∧ (s.openGroup? st = none → s.newSlots st r + pr.openReserve.toNat ≤ s.freeSlots)

/-- The write is short of nothing (R77). -/
def NotShort (s : State) (st : Stream) (r : Request) (commit : Bool) : Prop :=
  s.newSlots st r ≤ s.freeSlots
    ∧ s.journal.queue.length + (r.visited.length + bit commit) ≤ 32
    ∧ s.distance + s.claims + (r.visited.length + bit (s.openGroup? st).isNone) ≤ s.ringSize
    ∧ (commit = true → s.pipelineInUse < 32)

/-- The write would open a group into the open reserve (R76). -/
def BelowReserve (s : State) (pr : Profile) (st : Stream) (r : Request) : Prop :=
  s.openGroup? st = none ∧ s.freeSlots < s.newSlots st r + pr.openReserve.toNat

/-! ### What an examination finds (R53 to R60, R68, R75 to R80) -/

/-- The request is declined for this reason, without a discard (R53 to R57, R61, R70). -/
def DeclinedAt (s : State) (st : Stream) (r : Request) : DeclineReason → Prop
  | .engineFault =>
      s.engine.state = .faulted ∧ s.profile = none
        ∨ s.engine.state = .faulted ∧ ∃ pr, PastFirstTests s pr r
            ∧ (Op.isRead r.op = true ∧ (pr.regionAt r.first).isSome ∧ (∀ c ∈ s.engine.causes, c.onlineSide = false)
              ∨ ∃ g, ProtectedWrite s pr g r ∧ g.mask.getLsbD st.val = true ∧ (getV pr.streams st).enabled = true)
  | .blockCrossing => s.engine.state ≠ .unformatted ∧ s.profile.isSome ∧ r.crossesBlock = true
  | .journalArea =>
      s.engine.state ≠ .unformatted ∧ s.profile.isSome ∧ r.crossesBlock = false ∧ s.touchesJournal r = true
  | .writeDenied => ∃ pr g, ProtectedWrite s pr g r ∧ g.mask.getLsbD st.val = false
  | .streamOff =>
      ∃ pr g, ProtectedWrite s pr g r ∧ g.mask.getLsbD st.val = true ∧ (getV pr.streams st).enabled = false
  | .conflictCycle =>
      ∃ pr g, Journaled s pr g st r ∧ s.waitSet st r ≠ [] ∧ s.closesCycle st (s.waitSet st r) = true
  | .holdExpired | .groupLimit | .overflow | .discarded | .memoryError => False

/-- The write is held with this kind and wait set; `want`: a checkpoint is requested (R57, R68, R76, R78, R79). -/
def HeldAt (s : State) (st : Stream) (r : Request) (pr : Profile) (waits : List Stream) (want : Bool) : HoldKind → Prop
  | .quiesce => waits = [] ∧ want = false ∧ ∃ g, ProtectedWrite s pr g r ∧ g.mask.getLsbD st.val = true
      ∧ (getV pr.streams st).enabled = true
      ∧ (s.engine.state = .quiesced ∨ s.engine.state = .quiescing ∧ s.openGroup? st = none)
  | .conflict => waits = s.waitSet st r ∧ want = false ∧ ∃ g, Journaled s pr g st r ∧ s.waitSet st r ≠ []
      ∧ s.closesCycle st (s.waitSet st r) = false
  | .space => waits = [] ∧ ∃ g, Journaled s pr g st r ∧ ConflictFree s st r
      ∧ s.openLength st + s.newSlots st r ≤ (getV pr.streams st).entryLimit.toNat
      ∧ (BelowReserve s pr st r ∧ want = false
        ∨ ¬ BelowReserve s pr st r ∧ ¬ (s.newSlots st r ≤ s.freeSlots
              ∧ s.journal.queue.length + (r.visited.length + bit (isCommitWrite (getV pr.streams st) r)) ≤ 32
              ∧ s.distance + s.claims + (r.visited.length + bit (s.openGroup? st).isNone) ≤ s.ringSize)
            ∧ s.reliefPending (s.shortQueue r (isCommitWrite (getV pr.streams st) r)) = true
            ∧ want = (later s.journal.liveTail s.ckpt.durableTail && s.ckpt.inFlight.isNone && s.shortRing st r))
  | .pipeline => waits = [] ∧ want = false ∧ ∃ g, Journaled s pr g st r ∧ ConflictFree s st r
      ∧ WithinLimits s pr st r ∧ NotShort s st r false ∧ s.shortQueue r true = false
      ∧ isCommitWrite (getV pr.streams st) r = true ∧ 32 ≤ s.pipelineInUse ∧ s.reliefPending false = true

/-- The write fails with a discard of its stream's OPEN group, if any: over the entry limit, or short with no relief pending
(R16, R80). -/
def OverflowsAt (s : State) (st : Stream) (r : Request) : DiscardReason → Prop
  | .groupLimit => ∃ pr g, Journaled s pr g st r ∧ ConflictFree s st r
      ∧ (getV pr.streams st).entryLimit.toNat < s.openLength st + s.newSlots st r
  | .overflow => ∃ pr g, Journaled s pr g st r ∧ ConflictFree s st r ∧ WithinLimits s pr st r
      ∧ ¬ NotShort s st r (isCommitWrite (getV pr.streams st) r)
      ∧ s.reliefPending (s.shortQueue r (isCommitWrite (getV pr.streams st) r)) = false
  | .cancel | .management => False

/-- The request passes through to memory; `cancel`: it runs the cancel action first (R53, R54, R56, R60). -/
def PassesAt (s : State) (st : Stream) (r : Request) (cancel : Bool) : Prop :=
  s.engine.state = .unformatted ∧ cancel = false
    ∨ ∃ pr, PastFirstTests s pr r ∧ pr.regionAt r.first = none
        ∧ (Op.isRead r.op = true ∧ cancel = false
          ∨ Op.isRead r.op = false ∧ r.hasEnabled = true ∧ cancel = touchesCancel (getV pr.streams st) r)

/-- The write is taken; `commit`: it seals its group (R58, R59). -/
def TakenAt (s : State) (st : Stream) (r : Request) (commit : Bool) : Prop :=
  ∃ pr g, Journaled s pr g st r ∧ commit = isCommitWrite (getV pr.streams st) r ∧ ConflictFree s st r
    ∧ WithinLimits s pr st r ∧ NotShort s st r commit

/-- The READ is a merged read (R54). -/
def MergedAt (s : State) (r : Request) : Prop :=
  ∃ pr, PastFirstTests s pr r ∧ Op.isRead r.op = true ∧ (pr.regionAt r.first).isSome
    ∧ (s.engine.state = .faulted → ∃ c ∈ s.engine.causes, c.onlineSide = true)

/-- The WRITE has no enabled byte (R55). -/
def ZeroEnableAt (s : State) (r : Request) : Prop :=
  ∃ pr, PastFirstTests s pr r ∧ Op.isRead r.op = false ∧ r.hasEnabled = false

/-! ### Effects several rules share -/

/-- The request-path queue with the request in place `p` handed over (R63, R138). -/
def handedOver (s : State) (st : Stream) (p : Place) (merged : Bool) : List PathRequest :=
  s.mem.path ++ [{ stream := st, place := p.index, merged := merged,
                   request := { addr := p.request.addr, op := p.request.op } }]

/-- The quiesce-completion test passes in this event (R167). -/
def quiesces (s t : State) : Bool :=
  t.engine.state = .quiescing && t.noGroup && t.journal.outstanding.isEmpty && !s.ckpt.holdsQuiesce

/-- After a retire or a discard the distance trigger and the quiesce-completion test are evaluated (R130, R167); of the
Checkpoint Logic nothing else changes but the retired-through number, which becomes `through`. -/
def WantsAfter (s t : State) (through : Word) : Prop :=
  t.ckpt = { s.ckpt with
    retiredThrough := through
    pending := s.ckpt.pending || t.distanceHolds || quiesces s t
    request := if quiesces s t then some .quiesce else s.ckpt.request }

/-- The held writes that `f` picks are owed one re-examination more, and no hold changes otherwise (R67). -/
def Owes (s t : State) (f : Stream → HeldWrite → Prop) : Prop :=
  ∀ o : Stream,
    (getV s.holds o = none → getV t.holds o = none)
      ∧ ∀ w, getV s.holds o = some w →
          (f o w → getV t.holds o = some { w with due := w.due + 1 }) ∧ (¬ f o w → getV t.holds o = some w)

/-- The OPEN group `g` of the stream has been discarded (R19, R20, R32, R115). -/
def DiscardsGroup (s t : State) (st : Stream) (g : Group) : Prop :=
  t.groups = { s.groups with opens := setV s.groups.opens st none }
    ∧ t.pool.free = s.pool.free ++ g.entries
    ∧ (∀ id, t.slot id = if id ∈ g.entries then none else s.slot id)
    ∧ t.index = indexUpdate (fun e => e.discard g.entries) s.index
    ∧ t.journal = { s.journal with
        queue := s.journal.queue.filter fun q => q.group ≠ g.ref
        failed := s.journal.failed.map fun r => if r.group = g.ref then { r with kind := .filler } else r
        liveTail := liveTailOf s.ckpt.durableTail s.journal.head t.groups.all }

/-- The write's lines that the stream's OPEN group does not hold: each takes a slot (R13, R75). -/
def State.newLines (s : State) (st : Stream) (r : Request) : List Line :=
  match s.openGroup? st with
  | none => r.visited
  | some g => r.visited.filter fun l => (s.slotFor g l).isNone

/-- The stream's OPEN group, or the group that a take would open: its number and identity from the counters (R2, R3). -/
def State.openOrNew (s : State) (st : Stream) : Group :=
  (s.openGroup? st).getD (newGroup s.groups.nextRef s.groups.nextGroup st)

/-- The write's lines have joined the OPEN group, which is now `g`, giving this Slot Pool and this record queue (R3, R13, R14,
R105): new lines take slots from the head of the free list, held lines are merged into, and every visited line queues one
ENTRY record. -/
def Joined (s : State) (st : Stream) (r : Request) (g : Group) (pool : SlotPool) (queue : List QueuedRecord) : Prop :=
  g = { s.openOrNew st with
        entries := (s.openOrNew st).entries ++ s.pool.free.take (s.newSlots st r)
        recordCount := (s.openOrNew st).recordCount + BitVec.ofNat 32 r.visited.length }
    ∧ pool.free = s.pool.free.drop (s.newSlots st r)
    ∧ (∀ id, id ∉ g.entries → getV pool.slots id = s.slot id)
    ∧ ∃ ids : List SlotId, queue = s.journal.queue ++ ids.map (fun id => { kind := .entry id, group := g.ref })
        ∧ (∀ id ∈ g.entries, id ∉ ids → getV pool.slots id = s.slot id)
        ∧ List.Forall₂ (fun id l => id ∈ g.entries ∧ getV pool.slots id = some
            { line := l, group := (((s.openGroup? st).bind (s.slotFor · l)).bind s.slot).elim g.ref (·.group)
              cells := (((s.openGroup? st).bind (s.slotFor · l)).bind s.slot).elim (r.cells l) fun x =>
                overlay x.cells (r.cells l) }) ids r.visited

/-- FAULTED has been entered from this engine record with this cause and return state (R163). -/
def EngineControl.faultedWith (e : EngineControl) (c : FaultCause) (back : Option EngineState) : EngineControl :=
  { e with state := .faulted, firstCause := some c, causes := [c], returnState := back, quiescePending := false }

/-- The clearing of RESTART, and of FORMAT from FAULTED, has been made (R22, R42, R83, R119, R135, R146, R160, R171), leaving this
retired-through number: RESTART keeps it and FORMAT sets it to 0 (R135). -/
def Cleared (s t : State) (through : Word) : Prop :=
  (∀ st, t.openGroup? st = none) ∧ t.groups.pipeline = [] ∧ t.groups.replaying = none ∧ t.groups.nextGroup = 1
    ∧ t.pool.free = allSlots ∧ (∀ id, t.slot id = none) ∧ t.index = [] ∧ (∀ st, getV t.holds st = none)
    ∧ t.journal = { queue := [], outstanding := [], failed := [], head := 0, liveTail := 0, nextCommit := 1,
                    format := s.journal.format }
    ∧ t.apply = none
    ∧ t.ckpt = { s.ckpt with durableTail := 0, retiredThrough := through, inFlight := none, pending := false, request := none,
                             retained := none, rewrite := none }
    ∧ t.mem = { outstanding := [], path := [], pointer := .serviceEngine, draining := false }
    ∧ t.service.recovery = Recovery.empty ∧ t.service.replay = none ∧ t.service.digest = none

/-- A command that runs has ended with this result: the slot is IDLE and COMMAND_DONE is queued (R177). -/
def ManagementPort.ended (m : ManagementPort) (c : Command) (r : Result) (item : Byte := 0) (test : BitVec 4 := 0) :
    ManagementPort :=
  ({ m with running := none, result := { m.result with result := r, item := item, test := test } }).push
    (.commandDone c.code r)

/-- A command has been taken and has ended in the taking event (R177). -/
def ManagementPort.answered (m : ManagementPort) (code : Byte) (r : Result) (item : Byte := 0) (test : BitVec 4 := 0) :
    ManagementPort :=
  ({ m with result := { code := code, result := r, item := item, test := test, overrun := false } }).push
    (.commandDone code r)

/-- A command has been taken and runs (R177). -/
def ManagementPort.runs (m : ManagementPort) (c : Command) : ManagementPort :=
  { m with running := some c, result := { code := c.code, result := .running, item := 0, test := 0, overrun := false } }

/-- The command, if it runs, has ended with this result (R160, R170). -/
def ManagementPort.endsIf (m : ManagementPort) (c : Command) (r : Result) : ManagementPort :=
  if m.running = some c then m.ended c r else m

/-- RESTART, if it runs, has ended with this result, because recovery has (R160). -/
def ManagementPort.restartEnds (m : ManagementPort) (r : Result) : ManagementPort := m.endsIf .restart r

/-! ### CLEAR_FAULT (R163, R165, R166) -/

/-- A cause has left the cause set (R165). -/
def EngineControl.without (e : EngineControl) (c : FaultCause) : EngineControl :=
  { e with causes := e.causes.filter (· ≠ c) }

/-- A cause has joined the cause set (R163). -/
def EngineControl.joinedBy (e : EngineControl) (c : FaultCause) : EngineControl :=
  { e with causes := allCauses.filter fun x => x = c || e.causes.contains x }

/-- This event completes no step of a running CLEAR_FAULT and begins no new apply attempt: none runs, or it is in its anchor
step, or failed records are left to rewrite, or its apply attempt has begun or waits for more than `left` writes (R165). -/
def ClearWaits (s : State) (left : Nat) : Prop :=
  match s.engine.clear with
  | none | some .anchor => True
  | some (.journal _) => s.journal.failed ≠ []
  | some (.apply started) => ∃ a, s.apply = some a ∧ (started = true ∨ left < a.outstanding)

/-- CLEAR_FAULT has ended FAILED (R166): the engine stays FAULTED with its cause set; a rewrite of the retained anchor has no
further half issued (log entry 12). -/
def State.clearFailed (s : State) : State :=
  { s with engine := { s.engine with clear := none }
           ckpt := { s.ckpt with rewrite := s.ckpt.rewrite.bind Rewrite.disown }
           mgmt := s.mgmt.ended .clearFault .failed }

/-- The cause `c` has been reported to the FAULTED engine of `u` (R163): a cause already there changes nothing; a new one joins
the set, is announced, and ends a running CLEAR_FAULT FAILED (R166), FAULT before COMMAND_DONE (log entry 11). -/
def CauseJoins (u t : State) (c : FaultCause) : Prop :=
  (c ∈ u.engine.causes → Becomes t u)
    ∧ (c ∉ u.engine.causes → u.engine.clear = none →
        Becomes t { u with engine := u.engine.joinedBy c, mgmt := u.mgmt.push (.fault c) })
    ∧ (c ∉ u.engine.causes → u.engine.clear ≠ none → u.mgmt.running = some .clearFault →
        Becomes t (State.clearFailed { u with engine := u.engine.joinedBy c, mgmt := u.mgmt.push (.fault c) }))

/-- The state that a CLEAR_FAULT ending DONE enters (R166), when its anchor step answered `answered`. -/
def State.clearEnters (s : State) (answered : Option CheckpointRequest) : EngineState :=
  if answered = some .quiesce ∨ s.engine.returnState = some .quiesced then .quiesced
  else if s.engine.returnState = some .quiescing ∨ s.engine.quiescePending = true then .quiescing
  else .online

/-- The event records of a CLEAR_FAULT ending DONE and its result (R157, R166), in the order of log entry 11. -/
def State.clearedMgmt (s : State) (answered : Option CheckpointRequest) : ManagementPort :=
  let m := if answered = some .recovery then s.mgmt.push (.recoveryDone s.service.recovery.groupsReplayed) else s.mgmt
  let m := m.push (.faultCleared (s.clearEnters answered))
  (if s.clearEnters answered = .quiesced then m.push (.state .quiesced) else m).ended .clearFault .done

/-- CLEAR_FAULT ends DONE in the event that has made the state `u` so far, and leads to `t` (R166). -/
def ClearEnds (u t : State) (answered : Option CheckpointRequest) : Prop :=
  WantsAfter u t u.ckpt.retiredThrough
    ∧ Becomes t { u with
        engine := { u.engine with
          state := u.clearEnters answered, firstCause := none, causes := [], returnState := none, quiescePending := false
          activation := none, clear := none }
        profile := if answered = some .resume then u.engine.activation <|> u.profile else u.profile
        service := { u.service with
          recovery := if answered = some .recovery then { u.service.recovery with phase := none } else u.service.recovery }
        mgmt := u.clearedMgmt answered
        ckpt := t.ckpt }

/-- The anchor step of a running CLEAR_FAULT begins in the event that has made the state `u` so far (R165): with its cause it
goes on; without, it completes at once, and so it does without a retained anchor (log entry 12). -/
def AnchorStepBegins (u t : State) : Prop :=
  (.checkpointWrite ∈ u.engine.causes → u.ckpt.retained.isSome →
      Becomes t { u with engine := { u.engine with clear := some .anchor } })
    ∧ (.checkpointWrite ∉ u.engine.causes ∨ u.ckpt.retained = none → ClearEnds u t none)

/-- The apply step of a running CLEAR_FAULT begins (R165): with its cause the new attempt begins once nothing is outstanding
(R127); without, the anchor step begins at once, and so it does without an applying group (log entry 12). -/
def ApplyStepBegins (u t : State) : Prop :=
  (.applyWrite ∉ u.engine.causes → AnchorStepBegins u t)
    ∧ (.applyWrite ∈ u.engine.causes → u.apply = none →
        AnchorStepBegins { u with engine := u.engine.without .applyWrite } t)
    ∧ ∀ a, .applyWrite ∈ u.engine.causes → u.apply = some a →
        (a.outstanding = 0 → Becomes t { u with
          apply := some { a with nextPos := 0, acked := 0, stopped := false }
          engine := { u.engine with clear := some (.apply true) } })
        ∧ (a.outstanding ≠ 0 → Becomes t { u with engine := { u.engine with clear := some (.apply false) } })

/-- The journal step of a running CLEAR_FAULT begins (R165): with its cause it goes on; without, the apply step begins at once,
and so it does with nothing failed and nothing outstanding (log entry 12). -/
def JournalStepBegins (u t : State) : Prop :=
  (.journalWrite ∉ u.engine.causes → ApplyStepBegins u t)
    ∧ (.journalWrite ∈ u.engine.causes →
        (u.journal.failed ≠ [] ∨ u.journal.outstanding ≠ [] →
          Becomes t { u with engine := { u.engine with clear := some (.journal false) } })
        ∧ (u.journal.failed = [] → u.journal.outstanding = [] →
          ApplyStepBegins { u with engine := u.engine.without .journalWrite } t))

/-! ### Effects of whole events -/

/-- The group `g` has become SEALED with its COMMIT counted among the records (R30, R33, R67, R89, R91, R109): its versions are
sealed, owners with nothing unsealed cleared, the withheld response ready OK, parked writes owed a re-examination. -/
def SealsGroup (s t : State) (g : Group) : Prop :=
  t.groups = s.groups.update g.ref (fun x => { x with state := .sealed, commitResponse := none })
    ∧ (∀ o, (getV t.ports o).places = (departures ((getV s.ports o).places.map (Place.release g.ref))).2
        ∧ (getV t.ports o).nextIndex = (getV s.ports o).nextIndex)
    ∧ t.out = { Outputs.none with
        responses := allStreams.flatMap fun o => (departures ((getV s.ports o).places.map (Place.release g.ref))).1 }
    ∧ t.index = s.index.map (fun e => e.becomeSealed g.entries)
    ∧ Owes s t (fun o w => w.kind = .conflict
        ∧ ∃ l ∈ s.heldLines o w, l ∈ releasedBy (fun e => e.becomeSealed g.entries) s.index)

/-- The group `g` with commit number `n` has retired, the other outstanding requests being `rest` (R8, R31, R67, R115, R125). -/
def Retires (s t : State) (g : Group) (n : Word) (rest : List MemEntry) : Prop :=
  t.pool.free = s.pool.free ++ g.entries
    ∧ (∀ id, t.slot id = if id ∈ g.entries then none else s.slot id)
    ∧ WantsAfter s t n
    ∧ Owes s t (fun _ w => w.kind = .space ∨ w.kind = .pipeline)
    ∧ Becomes t { s with
        groups := { s.groups with pipeline := s.groups.pipeline.filter fun x => x.ref ≠ g.ref }
        pool := t.pool, apply := none, holds := t.holds, ckpt := t.ckpt
        index := indexUpdate (fun e => e.retire g.entries) s.index
        journal := { s.journal with liveTail := liveTailOf s.ckpt.durableTail s.journal.head t.groups.all }
        mem := { s.mem with outstanding := rest } }

/-- A request has been granted to the Service Engine: it stands at the end of the outstanding list (R138, R139). -/
def State.granted (s : State) (p : Purpose) (r : MemRequest) (byRotation : Bool) : State :=
  { s with mem := { s.mem with outstanding := s.mem.outstanding ++ [{ purpose := p, request := r, live := true }]
                               pointer := s.pointerAfter .serviceEngine byRotation } }

/-- The write of half an anchor (R131, R133, R172). -/
def State.halfWrite (s : State) (c : Copy) (a : Anchor) (second : Bool) : MemRequest :=
  { addr := BitVec.ofNat 36 (journalBase s.abase + (if c = .a then 0 else 256) + if second then 128 else 0)
    op := .write (allPresent (((anchorBytes a).drop (if second then 128 else 0)).take 128)) }

/-- A record read of recovery: 64 bytes at the position of the sequence number (R102, R152). -/
def State.recordReadAt (s : State) (f : Format) (seq : Word) : MemRequest :=
  { addr := BitVec.ofNat 36 (journalBase s.abase + 4096 + 64 * (seq.toNat % (1024 * 2 ^ f.code.toNat))), op := .read 64 }

/-- The streams that have an OPEN group, ascending, each with its group (R168). -/
def State.openGroups (s : State) : List (Stream × Group) :=
  allStreams.filterMap fun st => (s.openGroup? st).map fun g => (st, g)

/-- The place of the stream's held write. -/
def State.heldPlace (s : State) (st : Stream) : Option Place := (getV s.holds st).bind fun h => s.place? st h.place

/-- The places of a stream after the entry into FAULTED and before any response leaves: its held write is declined
ENGINE_FAULT (R81). -/
def State.placesFaulted (s : State) (st : Stream) : List Place :=
  match s.heldPlace st with
  | none => (getV s.ports st).places
  | some p => (getV s.ports st).places.map (Place.refuse p.index .engineFault)

/-- The event records and counters of the entry into FAULTED: FAULT, then the DECLINE of every held write (R62, R81, R163), in
ascending stream number (log entry 11). -/
def State.faultEntryMgmt (s : State) (c : FaultCause) : ManagementPort :=
  allStreams.foldl (fun m st => match s.heldPlace st with
    | none => m
    | some p => ({ m with declines := m.declines + 1 }).push (.decline st p.request.addr .engineFault p.request.tag))
    (s.mgmt.push (.fault c))

/-- FAULTED has been entered with cause `c` and return state `back` in the event that has made the state `u` so far (R81, R163):
every held write is declined ENGINE_FAULT; a RESUME whose checkpoint failed, and a RESTART, end FAILED (R160, R170). -/
def FaultEntered (u t : State) (c : FaultCause) (answered : Option CheckpointRequest) (back : Option EngineState) : Prop :=
  let m := u.faultEntryMgmt c
  (∀ st, (getV t.ports st).places = (departures (u.placesFaulted st)).2
      ∧ (getV t.ports st).nextIndex = (getV u.ports st).nextIndex)
    ∧ t.out = { Outputs.none with responses := allStreams.flatMap fun st => (departures (u.placesFaulted st)).1 }
    ∧ Becomes t { u with
        engine := u.engine.faultedWith c back, holds := Vector.replicate 8 none, ports := t.ports
        mgmt := (if answered = some .resume then m.endsIf .resume .failed else m).restartEnds .failed }

/-- The event records and counters of one discard of DISCARD_OPEN: GROUP_DISCARDED, then the DECLINE of the stream's held write,
if it has one (R19, R62, R82, R168). -/
def ManagementPort.discardedOpen (m : ManagementPort) (st : Stream) (g : Group) (held : Option Place) : ManagementPort :=
  let m := ({ m with discards := m.discards + 1 }).push (.groupDiscarded st g.number .management)
  match held with
  | none => m
  | some p => ({ m with declines := m.declines + 1 }).push (.decline st p.request.addr .discarded p.request.tag)

/-- The places of a stream after DISCARD_OPEN and before any response leaves: the held write of a stream with an OPEN group is
declined DISCARDED (R82). -/
def State.placesDiscarded (s : State) (st : Stream) : List Place :=
  match s.openGroup? st, s.heldPlace st with
  | some _, some p => (getV s.ports st).places.map (Place.refuse p.index .discarded)
  | some _, none => (getV s.ports st).places
  | none, _ => (getV s.ports st).places

/-- The holds with those of the streams that have an OPEN group ended (R66, R82). -/
def State.holdsDiscarded (s : State) : Vector (Option HeldWrite) 8 :=
  mapStreams (fun st h => if (s.openGroup? st).isSome then none else h) s.holds

/-- These OPEN groups have been discarded one after another (R19, R20, R32, R115). -/
def DiscardsGroups (s t : State) (opens : List (Stream × Group)) : Prop :=
  t.groups = { s.groups with opens := Vector.replicate 8 none }
    ∧ t.pool.free = s.pool.free ++ opens.flatMap (·.2.entries)
    ∧ (∀ id, t.slot id = if id ∈ opens.flatMap (·.2.entries) then none else s.slot id)
    ∧ t.index = opens.foldl (fun index x => indexUpdate (fun e => e.discard x.2.entries) index) s.index
    ∧ t.journal = { s.journal with
        queue := s.journal.queue.filter fun q => opens.all fun x => q.group ≠ x.2.ref
        failed := s.journal.failed.map fun r =>
          if opens.any (fun x => r.group = x.2.ref) then { r with kind := .filler } else r
        liveTail := liveTailOf s.ckpt.durableTail s.journal.head t.groups.all }

/-- The lines that the discards of these groups release (R32, R33). -/
def State.releasedByAll (s : State) (opens : List (Stream × Group)) : List Line :=
  releasedBy (fun e => opens.foldl (fun e x => e.discard x.2.entries) e) s.index

/-- The checks of FORMAT `w` after the clearing of FORMAT from FAULTED (R171); where they fail the activation copy stays (log
entry 14). -/
def FormatChecked (s t : State) (w : FormatWork) (m : ManagementPort) : Prop :=
  let e := { s.engine with causes := [] }
  let fault := profileFault s.engine.staging (journalBase s.abase) (1024 * 2 ^ w.code.toNat)
  let reused := w.stamp = 0 ∨ ∃ f, s.journal.format = some f ∧ f.stamp = w.stamp
  (reused → t.service.format = none ∧ t.engine = e ∧ t.mgmt = m.ended .format .stampReused)
    ∧ (∀ item test, ¬ reused → fault = some (item, test) →
        t.service.format = none ∧ t.engine = e ∧ t.mgmt = m.ended .format .profileInvalid item test)
    ∧ (¬ reused → fault = none → t.service.format = some { w with checked := true }
        ∧ t.engine = { e with activation := some s.engine.staging } ∧ t.mgmt = m)

/-- RESTART has been taken in the state `u`, in which what ran has ended (R48, R83, R144, R159): every unanswered request is
answered RETRACTED in taken order, the streams ascending (log entry 11), and the drain begins; with nothing outstanding the
clearing follows in the same event (R160). -/
def RestartTaken (u t : State) : Prop :=
  let e : EngineControl := { state := .recovering, firstCause := none, causes := [], returnState := none, quiescePending := false
                             staging := u.engine.staging, activation := none, clear := none }
  t.out = { Outputs.none with responses := allStreams.flatMap fun st => (getV u.ports st).places.map fun q =>
              ⟨q.request.stream, q.request.tag, .retracted⟩ }
    ∧ (∀ st, (getV t.ports st).places = [] ∧ (getV t.ports st).nextIndex = (getV u.ports st).nextIndex)
    ∧ (∀ st, getV t.holds st = none) ∧ t.engine = e ∧ t.mgmt = u.mgmt.runs .restart ∧ t.service.format = none
    ∧ t.service.digest = none ∧ t.profile = u.profile ∧ t.mem.path = []
    ∧ (u.mem.outstanding = [] → Cleared u t u.ckpt.retiredThrough)
    ∧ (u.mem.outstanding ≠ [] → Becomes t { u with
        ports := t.ports, holds := Vector.replicate 8 none, engine := e, mgmt := u.mgmt.runs .restart
        groups := { u.groups with pipeline := u.groups.pipeline.map fun g => { g with commitResponse := none } }
        mem := { u.mem with draining := true, path := [] }
        service := { u.service with format := none } })

/-- The requests of these purposes will complete and be ignored (R149, R158); `rest` is what stays outstanding. -/
def ignoring (f : Purpose → Bool) (rest : List MemEntry) : List MemEntry :=
  rest.map fun e => { e with live := e.live && !f e.purpose }

/-- A descriptor filled from a COMMIT (R23): its identity, the low three bits of the stream byte (log entry 18), the numbers and
the ENTRY-record count of the COMMIT, no slot yet. -/
def FilledFrom (d : Group) (ref : Nat) (st : Byte) (number commit count : Word) : Prop :=
  d.ref = ref ∧ d.number = number ∧ d.stream.val = st.toNat % 8 ∧ d.commitNumber = some commit ∧ d.recordCount = count
    ∧ d.state = .applying ∧ d.entries = [] ∧ d.firstRecord = none ∧ d.commitResponse = none

/-- The walk has reached H in the event that has made this state so far (R156): the counters, tails and head are set, and the
closing checkpoint is asked for. -/
def State.replayEnds (u : State) (h : Word) : State :=
  { u with
    groups := { u.groups with nextGroup := laterCounter u.groups.nextGroup u.service.recovery.latestGroup }
    journal := { u.journal with
      nextCommit := laterCounter u.journal.nextCommit u.service.recovery.latestCommit
      head := h + 8, liveTail := h + 8 }
    ckpt := { u.ckpt with
      durableTail := h + 8, pending := true, request := some .recovery
      retiredThrough := u.service.recovery.lastReplayed.getD u.ckpt.retiredThrough }
    service := { u.service with recovery := { u.service.recovery with phase := some .close } } }

/-- The group `g` has been replayed in full in the event that has made the state `u` so far (R155): its slots join the tail of
the free list, its descriptor is free, it is counted, and the walk resumes, to end replay at once when it stands at `h`, H. -/
def Replayed (u t : State) (g : Group) (h : Word) : Prop :=
  let v : State := { u with
    pool := t.pool
    groups := { u.groups with replaying := none }
    service := { u.service with
      replay := none
      recovery := { u.service.recovery with
        lastReplayed := g.commitNumber, groupsReplayed := u.service.recovery.groupsReplayed + 1 } } }
  t.pool.free = u.pool.free ++ g.entries ∧ (∀ id, t.slot id = if id ∈ g.entries then none else u.slot id)
    ∧ (u.service.recovery.cursor ≠ h → Becomes t v) ∧ (u.service.recovery.cursor = h → Becomes t (v.replayEnds h))

/-- The count check at the COMMIT (R154), with the replay at `p`, its descriptor `g` and this Slot Pool: with equal counts the
home writes begin, or with counts of 0 the group is replayed at once (log entry 18); otherwise recovery ends in FAULTED with
RECOVERY_MISMATCH (R158), a RESTART that runs FAILED (R160). -/
def CountCheck (s t : State) (p : Replay) (g : Group) (pool : SlotPool) (rest : List MemEntry) : Prop :=
  let u : State := { s with pool := pool, groups := { s.groups with replaying := some g } }
  t.out = Outputs.none
    ∧ (p.matched = p.entryCount.toNat → g.entries.length = p.slotCount.toNat → g.entries ≠ [] → Becomes t { u with
        mem := { s.mem with outstanding := rest }
        service := { s.service with replay := some { p with writing := true } } })
    ∧ (∀ h, p.matched = p.entryCount.toNat → g.entries.length = p.slotCount.toNat → g.entries = [] →
        s.service.recovery.scannedHead = some h →
        Replayed { u with mem := { s.mem with outstanding := rest } } t g h)
    ∧ (p.matched ≠ p.entryCount.toNat ∨ g.entries.length ≠ p.slotCount.toNat → Becomes t { u with
        mem := { s.mem with outstanding := ignoring Purpose.isRecovery rest }
        service := { s.service with replay := some p }
        engine := s.engine.faultedWith .recoveryMismatch none
        mgmt := (s.mgmt.push (.fault .recoveryMismatch)).restartEnds .failed })

/-! ### Cold reset -/

/-- Every block at its cold-reset values with this level latched on ABASE (R22, R42, R64, R83, R119, R135, R146, R147, R184). -/
def ColdValues (abase : BitVec 4) (t : State) : Prop :=
  t.abase = abase ∧ t.now = 0 ∧ (∀ st, getV t.ports st = { places := [], nextIndex := 0 }) ∧ t.profile = none
    ∧ (∀ st, t.openGroup? st = none) ∧ t.groups.pipeline = [] ∧ t.groups.replaying = none ∧ t.groups.nextGroup = 1
    ∧ t.pool.free = allSlots ∧ (∀ id, t.slot id = none) ∧ t.index = [] ∧ (∀ st, getV t.holds st = none)
    ∧ t.journal = { queue := [], outstanding := [], failed := [], head := 0, liveTail := 0, nextCommit := 1, format := none }
    ∧ t.apply = none
    ∧ t.ckpt = { number := 0, lastCopy := none, durableTail := 0, retiredThrough := 0, inFlight := none, pending := false,
                 request := none, retained := none, rewrite := none }
    ∧ t.mem = { outstanding := [], path := [], pointer := .serviceEngine, draining := false }
    ∧ t.service.recovery.phase = some .anchors ∧ t.service.recovery.anchorReads = []
    ∧ t.service.recovery.chosen = none ∧ t.service.recovery.scannedHead = none
    ∧ t.service.recovery.latestGroup = none ∧ t.service.recovery.latestCommit = none
    ∧ t.service.recovery.lastReplayed = none ∧ t.service.recovery.groupsReplayed = 0
    ∧ t.service.replay = none ∧ t.service.format = none ∧ t.service.digest = none
    ∧ t.engine.state = .recovering ∧ t.engine.firstCause = none ∧ t.engine.causes = []
    ∧ t.engine.returnState = none ∧ t.engine.quiescePending = false ∧ t.engine.activation = none ∧ t.engine.clear = none
    ∧ (∀ i, (getV t.engine.staging.regions i).enabled = false) ∧ (∀ j, (getV t.engine.staging.streams j).enabled = false)
    ∧ t.engine.staging.holdLimit = 0 ∧ t.engine.staging.openReserve = 24
    ∧ (∀ i, getV t.mgmt.args i = 0) ∧ t.mgmt.intEnable = 0 ∧ t.mgmt.selectActive = false ∧ t.mgmt.selectItem = 0
    ∧ t.mgmt.running = none ∧ t.mgmt.result.code = 0 ∧ t.mgmt.result.result = .done ∧ t.mgmt.result.overrun = false
    ∧ t.mgmt.events = [] ∧ t.mgmt.lost = 0 ∧ t.mgmt.latch1 = 0 ∧ t.mgmt.latch2 = 0 ∧ t.mgmt.latch3 = 0
    ∧ t.mgmt.commits = 0 ∧ t.mgmt.discards = 0 ∧ t.mgmt.declines = 0 ∧ t.mgmt.records = 0
    ∧ t.mgmt.digestResult = 0 ∧ t.mgmt.coveredBytes = 0 ∧ t.intPin = false ∧ t.out = Outputs.none

/-- The command is a completion that carries `x` (R136). -/
def Carries (c : Instr) (x : Completion) : Prop :=
  c = .passThroughCompletion x ∨ c = .homeReadDataReturn x ∨ c = .anchorReadCompletion x ∨ c = .scanReadCompletion x
    ∨ c = .walkReadCompletion x ∨ c = .digestReadCompletion x

/-! ### Laws -/

/-- Every slot a group holds, a replay's among them. -/
def State.slotsInUse (s : State) : List SlotId :=
  (s.groups.opens.toList.filterMap id ++ s.groups.pipeline ++ s.groups.replaying.toList).flatMap (·.entries)

/-- The free-list law (R12): "every slot is in the free list or in exactly one group's entry list, never in both and never
twice". -/
def FreeListLaw (s : State) : Prop := (s.pool.free ++ s.slotsInUse).Perm allSlots

/-- The descriptors' identities are distinct and were all given out; the Apply Engine's group is in the pipeline. -/
def RefLaw (s : State) : Prop :=
  ((s.groups.opens.toList.filterMap id ++ s.groups.pipeline ++ s.groups.replaying.toList).map (·.ref)).Nodup
    ∧ (∀ g ∈ s.groups.opens.toList.filterMap id ++ s.groups.pipeline ++ s.groups.replaying.toList, g.ref < s.groups.nextRef)
    ∧ (∀ a, s.apply = some a → ∃ g ∈ s.groups.pipeline, g.ref = a.group)

/-- A replay's descriptor is held exactly while a replay is in progress, and no read of the walk is then wanted (R153, R154). -/
def ReplayLaw (s : State) : Prop :=
  s.groups.replaying.isSome = s.service.replay.isSome
    ∧ (s.groups.replaying.isSome → ∀ e ∈ s.mem.outstanding, e.purpose.isWalkRead = true → e.live = false)

/-- An entry of the Line Index: its owner is present exactly while its unsealed or open part holds a version (R25, R26), and
it lists at least one slot (R24). -/
def EntryLaw (e : IndexEntry) : Prop :=
  e.isEmpty = false ∧ e.owner.isSome = (!e.unsealedPart.isEmpty || e.openPart.isSome)

/-- The Line Index: its entries are in line order, so no two have one line (R24), and each keeps the entry law. -/
def IndexLaw (s : State) : Prop :=
  s.index.Pairwise (fun a b => a.line.toNat < b.line.toNat) ∧ ∀ e ∈ s.index, EntryLaw e

/-- The event law (R181): at most 32 records. -/
def EventLaw (s : State) : Prop := s.mgmt.events.length ≤ 32

/-- A stream has at most 4 requests outstanding (R45, R46). -/
def PlaceLaw (s : State) : Prop := ∀ st : Stream, (getV s.ports st).places.length ≤ 4

/-- At most 16 requests are outstanding on the memory port (R139). -/
def OutstandingLaw (s : State) : Prop := s.mem.outstanding.length ≤ 16

/-- The record queue holds at most 32 records (R105). -/
def QueueLaw (s : State) : Prop := s.journal.queue.length ≤ 32

/-- Outside FAULTED the engine record holds no fault (R162). -/
def FaultRecordLaw (s : State) : Prop :=
  s.engine.state ≠ .faulted →
    s.engine.firstCause = none ∧ s.engine.causes = [] ∧ s.engine.returnState = none ∧ s.engine.quiescePending = false

end Sys2Proof.Machine
end

