-- ==== Sys2Proof/Certificates/Slice0/Obligations.lean ====
section
/-! DEFINITION. The statements for the provers. -/

open Sys2Proof Sys2Proof.Machine

/-! ### The step, reset and power -/

/-- Stepping with a command at the front of the queue runs it on the state with the queue's rest; on an empty queue a
microsecond passes (the model's choice, log entry 1). -/
def Obligations.StepRunsFrontCommand : Prop :=
  (∀ (c : Instr) (rest : List Instr) (s : State),
      step { s with pending := c :: rest } = exec c { s with pending := rest })
    ∧ ∀ s : State, s.pending = [] → step s = .next { s with now := s.now + 1 }

/-- The state after reset is at the cold-reset values of every block, running, with an empty queue.
RESET_RELEASE brings every block to its cold-reset values and latches ABASE, from every state.
ABASE 0 at reset (log entry 3), the timebase at 0 (log entry 1), the first place of a queue being place 0 (log entry 4) and empty
outputs (log entry 2) are the model's choices, not values the spec gives. -/
def Obligations.ColdResetValues : Prop :=
  (ColdValues 0 State.reset ∧ State.reset.run = .running ∧ State.reset.pending = [])
  ∧ (∀ (s : State) (abase : BitVec 4), Leads (.resetRelease abase) s fun t =>
    ColdValues abase t ∧ t.run = .running ∧ t.pending = s.pending ∧ t.freeCount = s.freeCount)

/-- RESET_ASSERT stops the part and changes nothing else; POWER_LOSS loses every volatile value.
While RESET is asserted or the power is off, every command but those of the pins and the power leaves the part as it
is: nothing is taken, nothing is issued, completions and frames are ignored.
That RESET_ASSERT changes no stored value, and that a loss of power leaves the cold-reset values in a part that does nothing
until RESET_RELEASE, is the model's reading (log entry 16). -/
def Obligations.StoppedPartDoesNothing : Prop :=
  (∀ s : State, Leads .resetAssert s (fun t => t = { s with run := .inReset, out := Outputs.none })
    ∧ Leads .powerLoss s fun t => ColdValues s.abase t ∧ t.run = .powerOff ∧ t.pending = s.pending)
  ∧ (∀ (c : Instr) (s : State), c.wf = true → c.isPin = false → s.run ≠ .running → Leads c s (Untouched s))

/-- Every command answers a next state, from every state, but for the completion of a READ that is still wanted and whose OK
data is not one byte for each byte of its request: the memory side never sends it (R136).
No event but a reset or a loss of power changes the pins and the timebase, and none touches the waiting commands.
The stop is the model's (log entry 20). -/
def Obligations.EventsAnswerAndKeepPins : Prop :=
  (∀ (c : Instr) (s : State), c.wf = true →
    (∃ t, exec c s = .next t)
      ∨ ∃ e rest data, s.run = .running ∧ Awaits s e rest ∧ Carries c (.ok data) ∧ e.request.fits (.ok data) = false
          ∧ exec c s = .fault .memoryPromiseBroken)
  ∧ (∀ (c : Instr) (s t : State), exec c s = .next t →
    t.pending = s.pending ∧ (c.isPin = false → SamePins s t))

/-! ### The request port and the Hold Unit -/

/-- The port takes a request while its stream has fewer than 4 outstanding, not in RECOVERING nor while FORMAT runs; else
the request waits on the link; no other length than 1 to 128 can reach the part.
No request is admitted in RECOVERING, while FORMAT runs, behind a held write or behind a merged read whose home read is not
granted; no re-examination is made that is not owed; no hold expires before its deadline.
The refusal of a length outside 1 to 128 is the model's (log entry 20). -/
def Obligations.RequestTakeAndBlocking : Prop :=
  (∀ (s : State) (r : Request),
    (Live s → r.wf = true → s.engine.state ≠ .recovering → s.mgmt.running ≠ some .format → s.taken r.stream < 4 →
      Leads (.requestTake r) s fun t => t.out = Outputs.none ∧ Becomes t { s with
        ports := setV s.ports r.stream
          { places := (getV s.ports r.stream).places
              ++ [{ index := (getV s.ports r.stream).nextIndex, request := r, phase := .waiting, buffer := none }]
            nextIndex := (getV s.ports r.stream).nextIndex + 1 } })
    ∧ (r.wf = true → s.engine.state = .recovering ∨ s.mgmt.running = some .format ∨ 4 ≤ s.taken r.stream →
        Leads (.requestTake r) s (Untouched s))
    ∧ (r.wf = false → exec (.requestTake r) s = .refused .noSuchRequest))
  ∧ (∀ (s : State) (st : Stream), s.run = .running →
    (s.engine.state = .recovering ∨ s.mgmt.running = some .format
        ∨ (∃ q ∈ (getV s.ports st).places, q.phase = .held
            ∨ q.phase = .reading ∧ ∃ b, q.buffer = some b ∧ b.state = .waiting)
        ∨ (∀ q ∈ (getV s.ports st).places, q.phase ≠ .waiting) →
      Leads (.admission st) s (Untouched s))
    ∧ (s.mgmt.running = some .format ∨ (∀ h, getV s.holds st = some h → h.due = 0) →
      Leads (.reExamination st) s (Untouched s))
    ∧ ((∀ h, getV s.holds st = some h → ∀ d, h.deadline = some d → s.now < d) →
      Leads (.holdExpiry st) s (Untouched s)))

/-- What an examination finds is what the rules say: outside RECOVERING, with a profile wherever the state has one, the
classification of a request answers a verdict whose conditions hold; each verdict's conditions lead to it; and an admission or
a re-examination that is owed acts on the request by that verdict. -/
def Obligations.EveryRequestIsDecided : Prop :=
  (∀ (s : State) (st : Stream) (r : Request), s.engine.state ≠ .recovering →
    (s.profile = none → s.engine.state = .unformatted ∨ s.engine.state = .faulted) →
    match s.classify st r with
    | .pass cancel => PassesAt s st r cancel
    | .merged => MergedAt s r
    | .zeroEnable => ZeroEnableAt s r
    | .decline reason => DeclinedAt s st r reason
    | .hold kind waits want => ∃ pr, HeldAt s st r pr waits want kind
    | .discard why reason => OverflowsAt s st r why
        ∧ (why = .groupLimit ∧ reason = .groupLimit ∨ why = .overflow ∧ reason = .overflow)
    | .take commit => TakenAt s st r commit)
  ∧ (∀ (s : State) (st : Stream) (r : Request),
    (∀ cancel, PassesAt s st r cancel → s.classify st r = .pass cancel)
    ∧ (MergedAt s r → s.classify st r = .merged)
    ∧ (ZeroEnableAt s r → s.classify st r = .zeroEnable)
    ∧ (∀ reason, DeclinedAt s st r reason → s.classify st r = .decline reason)
    ∧ (∀ pr waits want kind, HeldAt s st r pr waits want kind → s.classify st r = .hold kind waits want)
    ∧ (OverflowsAt s st r .groupLimit → s.classify st r = .discard .groupLimit .groupLimit)
    ∧ (OverflowsAt s st r .overflow → s.classify st r = .discard .overflow .overflow)
    ∧ ∀ commit, TakenAt s st r commit → s.classify st r = .take commit)
  ∧ (∀ (s : State) (st : Stream) (p : Place), s.run = .running → Admissible s st p →
    exec (.admission st) s = .next (s.clearOut.act st p (s.classify st p.request)).finish)
  ∧ ∀ (s : State) (st : Stream) (p : Place) (h : HeldWrite), s.run = .running → s.formatRuns = false →
    getV s.holds st = some h → 0 < h.due → s.place? st h.place = some p →
    exec (.reExamination st) s = .next ((s.clearOut.payDue st h).act st p (s.classify st p.request)).finish

/-- A request that passes through is handed to the Memory Port unchanged, in its admission event, and changes nothing else. -/
def Obligations.PassThroughIsHandedOver : Prop :=
  ∀ (s : State) (c : Instr) (st : Stream) (p : Place), Live s → Examines s c st p →
    PassesAt s st p.request false ∨ PassesAt s st p.request true ∧ s.openGroup? st = none →
    Leads c s fun t => t.out = Outputs.none ∧ Becomes t { s with
      holds := setV s.holds st none
      mem := { s.mem with path := handedOver s st p false }
      ports := (s.updatePlace st p.index fun q => { q with phase := .passed }).ports }

/-- A write that touches its stream's own cancel word discards the stream's OPEN group with reason CANCEL and is then handed
to the Memory Port. -/
def Obligations.CancelWriteDiscardsOpenGroup : Prop :=
  ∀ (s : State) (c : Instr) (st : Stream) (p : Place) (g : Group), Live s → Examines s c st p →
    PassesAt s st p.request true → s.openGroup? st = some g →
    Leads c s fun t => DiscardsGroup s t st g ∧ t.out = Outputs.none
      ∧ t.mgmt = ({ s.mgmt with discards := s.mgmt.discards + 1 }).push (.groupDiscarded st g.number .cancel)
      ∧ WantsAfter s t s.ckpt.retiredThrough
      ∧ Owes { s with holds := setV s.holds st none } t (fun o w => w.kind = .space
          ∨ w.kind = .conflict ∧ ∃ l ∈ s.heldLines o w, l ∈ s.discardReleases g)
      ∧ Becomes t { s with
          groups := t.groups, pool := t.pool, index := t.index, journal := t.journal, ckpt := t.ckpt, mgmt := t.mgmt
          holds := t.holds, mem := { s.mem with path := handedOver s st p false }
          ports := (s.updatePlace st p.index fun q => { q with phase := .passed }).ports }

/-- A READ in an enabled region takes an overlay buffer in state WAITING and its home read is handed to the Memory Port.
A WRITE with no enabled byte is answered OK and changes nothing else. -/
def Obligations.MergedReadsAndZeroEnableWrites : Prop :=
  (∀ (s : State) (st : Stream) (p : Place), Live s → Admissible s st p → MergedAt s p.request →
    Leads (.admission st) s fun t => t.out = Outputs.none ∧ Becomes t { s with
      mem := { s.mem with path := handedOver s st p true }
      ports := (s.updatePlace st p.index fun q => { q with
        phase := .reading
        buffer := some { state := .waiting, block := p.request.addr.toNat / 128 * 128,
                         cells := List.replicate 128 none, result := none } }).ports })
  ∧ (∀ (s : State) (c : Instr) (st : Stream) (p : Place), Live s → Examines s c st p → ZeroEnableAt s p.request →
    Leads c s fun t => Answered t st p (.ok []) ∧ Settles s t st (Place.answer p.index (.ok []))
      ∧ t.out.issued = none ∧ Becomes t { s with ports := t.ports, holds := setV s.holds st none })

/-- A request declined at its examination: the response DECLINED with the reason of the first test that applies, the decline
counter, the DECLINE event, the hold ended, and nothing else.
When the timebase reaches the deadline of a held write, the write is declined HOLD_EXPIRED and its hold ends; nothing else
changes. -/
def Obligations.DeclinesAndHoldExpiry : Prop :=
  (∀ (s : State) (c : Instr) (st : Stream) (p : Place) (reason : DeclineReason), Live s → Examines s c st p →
    DeclinedAt s st p.request reason →
    Leads c s fun t => Declined s t st p reason ∧ Settles s t st (Place.refuse p.index reason)
      ∧ t.out.issued = none ∧ Becomes t { s with ports := t.ports, holds := setV s.holds st none, mgmt := t.mgmt })
  ∧ (∀ (s : State) (st : Stream) (h : HeldWrite) (d : Nat) (p : Place), Live s → getV s.holds st = some h →
    h.deadline = some d → d ≤ s.now → s.place? st h.place = some p →
    Leads (.holdExpiry st) s fun t => Declined s t st p .holdExpired ∧ Settles s t st (Place.refuse p.index .holdExpired)
      ∧ t.out.issued = none ∧ Becomes t { s with ports := t.ports, holds := setV s.holds st none, mgmt := t.mgmt })

/-- A write that is held at its admission: kind, wait set, deadline after the hold limit (none for a limit of 0), the
checkpoint that R78 requests, and nothing else.
A re-examination that finds the write held again replaces kind and wait set and keeps the deadline; one re-examination
less is owed. -/
def Obligations.HoldsAndReHolds : Prop :=
  (∀ (s : State) (st : Stream) (p : Place) (pr : Profile) (waits : List Stream) (want : Bool) (kind : HoldKind),
    Live s → Admissible s st p → getV s.holds st = none → HeldAt s st p.request pr waits want kind →
    Leads (.admission st) s fun t => t.out = Outputs.none ∧ Becomes t { s with
      holds := setV s.holds st (some
        { place := p.index, kind := kind, waitSet := waits, due := 0
          deadline := if pr.holdLimit = 0 then none else some (s.now + pr.holdLimit.toNat) })
      ckpt := { s.ckpt with pending := s.ckpt.pending || want }
      ports := (s.updatePlace st p.index fun q => { q with phase := .held }).ports })
  ∧ (∀ (s : State) (st : Stream) (h : HeldWrite) (p : Place) (pr : Profile) (waits : List Stream) (want : Bool)
    (kind : HoldKind), Live s → s.mgmt.running ≠ some .format → getV s.holds st = some h → 0 < h.due →
    s.place? st h.place = some p → HeldAt s st p.request pr waits want kind →
    Leads (.reExamination st) s fun t => t.out = Outputs.none ∧ Becomes t { s with
      holds := setV s.holds st (some { h with kind := kind, waitSet := waits, due := h.due - 1 })
      ckpt := { s.ckpt with pending := s.ckpt.pending || want }
      ports := (s.updatePlace st p.index fun q => { q with phase := .held }).ports })

/-- A write over the entry limit, or short of space with no relief pending, is declined and its stream's OPEN group discarded,
the GROUP_DISCARDED event before the DECLINE event (R179); no other group is touched. -/
def Obligations.GroupLimitAndOverflowDiscard : Prop :=
  ∀ (s : State) (c : Instr) (st : Stream) (p : Place) (why : DiscardReason) (reason : DeclineReason), Live s →
    Examines s c st p → OverflowsAt s st p.request why →
    why = .groupLimit ∧ reason = .groupLimit ∨ why = .overflow ∧ reason = .overflow →
    Leads c s fun t => Answered t st p (.declined reason) ∧ Settles s t st (Place.refuse p.index reason)
      ∧ t.out.issued = none
      ∧ (s.openGroup? st = none →
          t.mgmt = ({ s.mgmt with declines := s.mgmt.declines + 1 }).push (.decline st p.request.addr reason p.request.tag)
          ∧ Becomes t { s with ports := t.ports, holds := setV s.holds st none, mgmt := t.mgmt })
      ∧ ∀ g, s.openGroup? st = some g → DiscardsGroup s t st g
          ∧ t.mgmt = ({ (({ s.mgmt with discards := s.mgmt.discards + 1 }).push (.groupDiscarded st g.number why)) with
              declines := s.mgmt.declines + 1 }).push (.decline st p.request.addr reason p.request.tag)
          ∧ WantsAfter s t s.ckpt.retiredThrough
          ∧ Owes { s with holds := setV s.holds st none } t (fun o w => w.kind = .space
              ∨ w.kind = .conflict ∧ ∃ l ∈ s.heldLines o w, l ∈ s.discardReleases g)
          ∧ Becomes t { s with
              groups := t.groups, pool := t.pool, index := t.index, journal := t.journal, ckpt := t.ckpt, mgmt := t.mgmt
              holds := t.holds, ports := t.ports }

/-- A protected write that passes every check is taken: its lines join the OPEN group or open one, its response is OK, new
versions enter the Line Index with the stream as owner, and nothing else changes. -/
def Obligations.WriteIsTaken : Prop :=
  ∀ (s : State) (c : Instr) (st : Stream) (p : Place), Live s → FreeListLaw s → IndexLaw s → Examines s c st p →
    TakenAt s st p.request false →
    Leads c s fun t => Answered t st p (.ok []) ∧ Settles s t st (Place.answer p.index (.ok [])) ∧ t.out.issued = none
      ∧ (∃ g, t.groups = { s.groups with
              opens := setV s.groups.opens st (some g)
              nextGroup := if s.openGroup? st = none then s.groups.nextGroup + 1 else s.groups.nextGroup
              nextRef := if s.openGroup? st = none then s.groups.nextRef + 1 else s.groups.nextRef }
          ∧ Joined s st p.request g t.pool t.journal.queue)
      ∧ (∀ l ∈ s.newLines st p.request, ∃ e id, t.entry l = some e ∧ e.owner = some st ∧ e.openPart = some id
          ∧ (t.slot id).map (·.line) = some l
          ∧ e.sealedPart = (s.entry l).elim [] (·.sealedPart) ∧ e.unsealedPart = (s.entry l).elim [] (·.unsealedPart))
      ∧ (∀ l, l ∉ s.newLines st p.request → t.entry l = s.entry l)
      ∧ t.claims = s.claims + p.request.visited.length + bit (s.openGroup? st).isNone
      ∧ Becomes t { s with
          groups := t.groups, pool := t.pool, index := t.index, journal := { s.journal with queue := t.journal.queue }
          holds := setV s.holds st none, ports := t.ports }

/-- A commit write that is taken seals its group in the same event: the COMMIT record behind the ENTRY records, the group at
the end of the commit pipeline in SEALING with the response withheld, the open descriptor free; every version of the group,
in the lines it held before and in those this write brings, becomes the last of the unsealed part of its line, and no other
entry of the Line Index changes. -/
def Obligations.CommitWriteSealsItsGroup : Prop :=
  ∀ (s : State) (c : Instr) (st : Stream) (p : Place), Live s → FreeListLaw s → IndexLaw s → Examines s c st p →
    TakenAt s st p.request true →
    Leads c s fun t => t.out = Outputs.none ∧ ∃ g queue, Joined s st p.request g t.pool queue
      ∧ t.groups = { s.groups with
          opens := setV s.groups.opens st none
          pipeline := s.groups.pipeline ++ [{ g with state := .sealing, commitResponse := some ⟨st, p.request.tag⟩ }]
          nextGroup := if s.openGroup? st = none then s.groups.nextGroup + 1 else s.groups.nextGroup
          nextRef := if s.openGroup? st = none then s.groups.nextRef + 1 else s.groups.nextRef }
      ∧ (∀ l ∈ s.newLines st p.request, ∃ e id, t.entry l = some e ∧ e.owner = some st ∧ e.openPart = none
          ∧ (t.slot id).map (·.line) = some l ∧ id ∈ g.entries
          ∧ e.sealedPart = (s.entry l).elim [] (·.sealedPart)
          ∧ e.unsealedPart = (s.entry l).elim [] (·.unsealedPart) ++ [id])
      ∧ (∀ l, l ∉ s.newLines st p.request → t.entry l = (s.entry l).map fun e => match e.openPart with
          | none => e
          | some id =>
            if id ∈ g.entries then { e with unsealedPart := e.unsealedPart ++ [id], openPart := none } else e)
      ∧ t.claims = s.claims + p.request.visited.length + bit (s.openGroup? st).isNone
      ∧ Becomes t { s with
          groups := t.groups, pool := t.pool, index := t.index, holds := setV s.holds st none
          journal := { s.journal with queue := queue ++ [{ kind := .commit, group := g.ref }] }
          ports := (s.updatePlace st p.index fun q => { q with phase := .withheld g.ref }).ports }

/-! ### The Memory Port: the arbiter and the grants -/

/-- The arbiter's choice: no grant while the list is full, in a drain, or with nobody eligible; the Apply Engine ahead of the
rotation while the free slots number no more than the open reserve; else the first eligible requester after the pointer.
Each grant issues one request, which joins the end of the outstanding list; a grant by rotation moves the pointer.
The rotation is Journal Writer, Apply Engine, request path, Service Engine, and round again. A requester is eligible while it has
a ready request and, for the Journal Writer, fewer than 8 and, for the Apply Engine, fewer than 4 requests outstanding: a record
or a rewrite under its conditions, a home write under its own, a request of the request path, a request of a work of the Service
Engine. -/
def Obligations.ArbiterRotates : Prop :=
  (rotationAfter .journalWriter = [.applyEngine, .requestPath, .serviceEngine, .journalWriter]
    ∧ rotationAfter .applyEngine = [.requestPath, .serviceEngine, .journalWriter, .applyEngine]
    ∧ rotationAfter .requestPath = [.serviceEngine, .journalWriter, .applyEngine, .requestPath]
    ∧ rotationAfter .serviceEngine = [.journalWriter, .applyEngine, .requestPath, .serviceEngine])
  ∧ (∀ p : Purpose, p.requester = match p with
    | .record | .rewrite => .journalWriter
    | .homeWrite => .applyEngine
    | .passThrough _ _ | .homeRead _ _ => .requestPath
    | .anchorHalf _ _ | .anchorRead | .scanRead _ | .walkRead _ | .collectRead _ | .replayWrite | .formatWrite
    | .digestRead => .serviceEngine)
  ∧ (∀ s : State,
    let count (r : Requester) : Nat := (s.mem.outstanding.filter fun e => e.purpose.requester = r).length
    (s.eligible .journalWriter = true ↔ count .journalWriter < 8
      ∧ ((∃ q rest, s.journal.queue = q :: rest ∧ (s.engine.state = .online ∨ s.engine.state = .quiescing)
            ∧ s.journal.failed = [] ∧ s.journal.outstanding.length < 8 ∧ (q.kind = .commit → s.journal.outstanding = []))
        ∨ (∃ own, s.engine.clear = some (.journal own)) ∧ s.journal.outstanding = [] ∧ s.journal.failed ≠ []
            ∧ ∀ e ∈ s.mem.outstanding, e.purpose ≠ .rewrite))
    ∧ (s.eligible .applyEngine = true ↔ count .applyEngine < 4
      ∧ ∃ a g, s.apply = some a ∧ s.findGroup a.group = some g ∧ a.stopped = false ∧ a.nextPos < g.entries.length
          ∧ a.outstanding < 4 ∧ s.engine.state ≠ .recovering
          ∧ (.applyWrite ∉ s.engine.causes ∨ s.engine.clear = some (.apply true)))
    ∧ (s.eligible .requestPath = true ↔ s.mem.path ≠ [])
    ∧ (s.eligible .serviceEngine = true ↔ ∃ w ∈ s.service.readyOrder, s.workReady w = true)
    ∧ (s.reservePrecedence = true ↔ ∃ p, s.profile = some p ∧ s.pool.free.length ≤ p.openReserve.toNat))
  ∧ ∀ s : State, s.run = .running →
    (16 ≤ s.mem.outstanding.length ∨ s.mem.draining = true ∨ (∀ r, s.eligible r = false) →
      Leads .memoryGrant s (Untouched s))
    ∧ (s.mem.draining = false → s.mem.outstanding.length < 16 → s.reservePrecedence = true →
        s.eligible .applyEngine = true → Granted s .applyEngine false)
    ∧ (∀ before r after, s.mem.draining = false → s.mem.outstanding.length < 16 →
        (s.reservePrecedence = true → s.eligible .applyEngine = false) →
        rotationAfter s.mem.pointer = before ++ r :: after → (∀ q ∈ before, s.eligible q = false) →
        s.eligible r = true → Granted s r true)
    ∧ ∀ r byRotation, Granted s r byRotation →
        Leads .memoryGrant s fun t => ∃ e, t.mem.outstanding = s.mem.outstanding ++ [e] ∧ e.live = true
          ∧ e.purpose.requester = r ∧ t.out.issued = some e.request ∧ t.mem.pointer = s.pointerAfter r byRotation

/-- MEMORY_GRANT is the event of the row that names what the arbiter grants; a row that names another requester,
or another kind of the chosen requester's requests, does not take place.
That the rows name one event is the model's reading (log entry 15). -/
def Obligations.GrantRowsAreMemoryGrant : Prop :=
  ∀ s : State, s.run = .running →
    (s.chosen = some .journalWriter → s.recordReady = true → exec .memoryGrant s = exec .recordIssue s)
    ∧ (s.chosen = some .journalWriter → s.recordReady = false → exec .memoryGrant s = exec .rewriteIssue s)
    ∧ (s.chosen = some .applyEngine → exec .memoryGrant s = exec .homeWriteIssue s)
    ∧ (s.chosen = some .requestPath → s.pathMerged = some true → exec .memoryGrant s = exec .capture s)
    ∧ (s.chosen = some .requestPath → s.pathMerged = some false → exec .memoryGrant s = exec .passThroughGrant s)
    ∧ (s.chosen = some .serviceEngine → s.presentsCheckpoint = true → exec .memoryGrant s = exec .checkpointIssue s)
    ∧ (s.chosen = some .serviceEngine → s.presentsCheckpoint = false →
        exec .memoryGrant s = exec .serviceRequestGrant s)
    ∧ (s.chosen ≠ some .journalWriter ∨ s.recordReady = false → Leads .recordIssue s (Untouched s))
    ∧ (s.chosen ≠ some .journalWriter ∨ s.recordReady = true → Leads .rewriteIssue s (Untouched s))
    ∧ (s.chosen ≠ some .applyEngine → Leads .homeWriteIssue s (Untouched s))
    ∧ (s.chosen ≠ some .requestPath ∨ s.pathMerged ≠ some true → Leads .capture s (Untouched s))
    ∧ (s.chosen ≠ some .requestPath ∨ s.pathMerged ≠ some false → Leads .passThroughGrant s (Untouched s))
    ∧ (s.chosen ≠ some .serviceEngine ∨ s.presentsCheckpoint = false → Leads .checkpointIssue s (Untouched s))
    ∧ (s.chosen ≠ some .serviceEngine ∨ s.presentsCheckpoint = true → Leads .serviceRequestGrant s (Untouched s))

/-- The content of a record is read from its group and its slot as they stand: an ENTRY the slot's line, mask and data, a
COMMIT the commit number, the record count and the slot count, written at the ring position of its sequence number.
The issue of a record: it takes the head as its sequence number and leaves the queue for the outstanding list; its group
gets its first record sequence and, for a COMMIT, its commit number; head plus claims stays as it was; SPACE holds are owed a
re-examination and the distance trigger is evaluated. -/
def Obligations.RecordIssueTakesTheHead : Prop :=
  (∀ (s : State) (f : Format) (g : Machine.Group) (seq : Word), s.journal.format = some f →
    (∀ kind, (s.recordWrite kind g seq).addr
        = BitVec.ofNat 36 (journalBase s.abase + 4096 + 64 * (seq.toNat % Machine.ringSize f.code)))
    ∧ (∀ id x, s.slot id = some x →
        (s.recordWrite (.entry id) g seq).op = .write (allPresent (entryRecord f.stamp seq g x.line x.cells)))
    ∧ (∀ n, g.commitNumber = some n →
        (s.recordWrite .commit g seq).op = .write (allPresent (commitRecord f.stamp seq g n)))
    ∧ (s.recordWrite .filler g seq).op = .write (allPresent (fillerRecord f.stamp seq)))
  ∧ (∀ (s : State) (q : QueuedRecord) (rest : List QueuedRecord) (g : Machine.Group) (byRotation : Bool), Live s →
    Granted s .journalWriter byRotation → s.recordReady = true → s.journal.queue = q :: rest →
    s.findGroup q.group = some g →
    Leads .recordIssue s fun t =>
      let g' := { g with firstRecord := g.firstRecord <|> some s.journal.head
                         commitNumber := if q.kind = .commit then some s.journal.nextCommit else g.commitNumber }
      let r := s.recordWrite q.kind g' s.journal.head
      t.out = onlyIssue r ∧ t.findGroup q.group = some g'
      ∧ t.claims + 1 = s.claims
      ∧ Owes s t (fun _ w => w.kind = .space)
      ∧ Becomes t { s with
          groups := s.groups.update q.group fun x => { x with
            firstRecord := x.firstRecord <|> some s.journal.head
            commitNumber := if q.kind = .commit then some s.journal.nextCommit else x.commitNumber }
          journal := { s.journal with
            queue := rest
            outstanding := s.journal.outstanding ++ [{ seq := s.journal.head, kind := q.kind, group := q.group }]
            head := s.journal.head + 1
            nextCommit := if q.kind = .commit then s.journal.nextCommit + 1 else s.journal.nextCommit }
          mem := { s.mem with outstanding := s.mem.outstanding ++ [{ purpose := .record, request := r, live := true }]
                              pointer := s.pointerAfter .journalWriter byRotation }
          holds := t.holds
          ckpt := { s.ckpt with pending := s.ckpt.pending || t.distanceHolds } })

/-- The front of the failed list is rewritten under its own sequence number, with the content of its group and slot as they
stand; it stays in the list until its acknowledgement.
A rewrite acknowledged OK leaves the failed list and is counted; a COMMIT's seals its group, as its first acknowledgement would
have; with a further entry left the journal step goes on, and with the last one JOURNAL_WRITE leaves the cause set and the
apply step begins; a rewrite that fails ends the CLEAR_FAULT that issued it FAILED and leaves the list as it was.
A rewrite whose CLEAR_FAULT has ended takes the same effects when it is acknowledged OK, whether no CLEAR_FAULT runs or a later one
waits in its journal step, which ends with the list; its failure changes nothing and ends no later CLEAR_FAULT.
The zero item and test of the result, and steps that find nothing to do, are the model's choice (log entry 12); the order of
the event records at the end of CLEAR_FAULT is log entry 11's. -/
def Obligations.FailedListIsRewritten : Prop :=
  (∀ (s : State) (q : IssuedRecord) (rest : List IssuedRecord) (byRotation : Bool), Live s →
    Granted s .journalWriter byRotation → s.recordReady = false → s.journal.failed = q :: rest →
    Leads .rewriteIssue s fun t =>
      let r := s.recordWrite q.kind (s.groupOf q.group) q.seq
      t.out = onlyIssue r ∧ Becomes t { s with
        engine := { s.engine with clear := some (.journal true) }
        mem := { s.mem with outstanding := s.mem.outstanding ++ [{ purpose := .rewrite, request := r, live := true }]
                            pointer := s.pointerAfter .journalWriter byRotation } })
  ∧ (∀ (s : State) (e : MemEntry) (rest : List MemEntry) (r : IssuedRecord) (more : List IssuedRecord), Live s →
    Awaits s e rest → e.purpose = .rewrite → s.journal.failed = r :: more → s.engine.clear = some (.journal true) →
    s.mgmt.running = some .clearFault →
    let last := more = [] ∧ s.journal.outstanding = []
    let u : State := { s with
      journal := { s.journal with failed := more }
      mem := { s.mem with outstanding := rest }
      mgmt := { s.mgmt with records := s.mgmt.records + 1 }
      engine := { s.engine with clear := some (.journal false) } }
    (r.kind ≠ .commit → Leads (.rewriteAcknowledgement .ok) s fun t => t.out = Outputs.none
      ∧ (¬ last → Becomes t u)
      ∧ (last → ApplyStepBegins { u with engine := u.engine.without .journalWrite } t))
    ∧ (∀ g, r.kind = .commit → s.findGroup r.group = some g → Leads (.rewriteAcknowledgement .ok) s fun t =>
      SealsGroup s t g
      ∧ (∀ st, ∀ p ∈ (getV s.ports st).places, p.phase = .withheld g.ref → Answered t st p (.ok []))
      ∧ let v : State := { u with
          groups := t.groups, ports := t.ports, index := t.index, holds := t.holds
          mgmt := { s.mgmt with records := s.mgmt.records + 1, commits := s.mgmt.commits + 1 } }
        (¬ last → Becomes t v) ∧ (last → ApplyStepBegins { v with engine := v.engine.without .journalWrite } t))
    ∧ Leads (.rewriteAcknowledgement .error) s fun t => t.out = Outputs.none
      ∧ Becomes t (State.clearFailed { s with mem := { s.mem with outstanding := rest } }))
  ∧ (∀ (s : State) (e : MemEntry) (rest : List MemEntry) (r : IssuedRecord) (more : List IssuedRecord), Live s →
    Awaits s e rest → e.purpose = .rewrite → s.journal.failed = r :: more →
    let stepEnds := s.engine.clear = some (.journal false) ∧ more = [] ∧ s.journal.outstanding = []
    let u : State := { s with
      journal := { s.journal with failed := more }
      mem := { s.mem with outstanding := rest }
      mgmt := { s.mgmt with records := s.mgmt.records + 1 } }
    (s.engine.clear = none ∨ s.engine.clear = some (.journal false) ∧ s.mgmt.running = some .clearFault →
      (r.kind ≠ .commit → Leads (.rewriteAcknowledgement .ok) s fun t => t.out = Outputs.none
        ∧ (¬ stepEnds → Becomes t u)
        ∧ (stepEnds → ApplyStepBegins { u with engine := u.engine.without .journalWrite } t))
      ∧ ∀ g, r.kind = .commit → s.findGroup r.group = some g → Leads (.rewriteAcknowledgement .ok) s fun t =>
        SealsGroup s t g
        ∧ (∀ st, ∀ p ∈ (getV s.ports st).places, p.phase = .withheld g.ref → Answered t st p (.ok []))
        ∧ let v : State := { u with
            groups := t.groups, ports := t.ports, index := t.index, holds := t.holds
            mgmt := { s.mgmt with records := s.mgmt.records + 1, commits := s.mgmt.commits + 1 } }
          (¬ stepEnds → Becomes t v) ∧ (stepEnds → ApplyStepBegins { v with engine := v.engine.without .journalWrite } t))
    ∧ (s.engine.clear ≠ some (.journal true) → Leads (.rewriteAcknowledgement .error) s fun t => t.out = Outputs.none
      ∧ Becomes t { s with mem := { s.mem with outstanding := rest } }))

/-- The issue of a home write: the slot at the next position, its mask as enables; next position and outstanding rise.
The grant of the oldest request of the request path: a pass-through request is issued unchanged; the grant of a merged
read's home read captures its overlay and changes neither the index nor the slots. -/
def Obligations.HomeWriteAndRequestPathGrants : Prop :=
  (∀ (s : State) (a : ApplyRecord) (g : Machine.Group) (id : SlotId) (x : Slot) (byRotation : Bool), Live s →
    Granted s .applyEngine byRotation → s.apply = some a → s.findGroup a.group = some g →
    g.entries[a.nextPos]? = some id → s.slot id = some x →
    Leads .homeWriteIssue s fun t =>
      let r : MemRequest := { addr := BitVec.ofNat 36 (32 * x.line.toNat), op := .write x.cells }
      t.out = onlyIssue r ∧ Becomes t { s with
        apply := some { a with nextPos := a.nextPos + 1, outstanding := a.outstanding + 1 }
        mem := { s.mem with outstanding := s.mem.outstanding ++ [{ purpose := .homeWrite, request := r, live := true }]
                            pointer := s.pointerAfter .applyEngine byRotation } })
  ∧ (∀ (s : State) (p : PathRequest) (rest : List PathRequest) (byRotation : Bool), Live s →
    Granted s .requestPath byRotation → s.mem.path = p :: rest →
    (p.merged = false → Leads .passThroughGrant s fun t => t.out = onlyIssue p.request ∧ Becomes t { s with
      mem := { s.mem with path := rest
                          outstanding := s.mem.outstanding
                            ++ [{ purpose := .passThrough p.stream p.place, request := p.request, live := true }]
                          pointer := s.pointerAfter .requestPath byRotation } })
    ∧ (p.merged = true → Leads .capture s fun t => t.out = onlyIssue p.request ∧ Becomes t { s with
      ports := (s.updatePlace p.stream p.place fun q => { q with
        buffer := q.buffer.map fun b => { b with state := .captured, cells := s.captureCells p.stream q.request } }).ports
      mem := { s.mem with path := rest
                          outstanding := s.mem.outstanding
                            ++ [{ purpose := .homeRead p.stream p.place, request := p.request, live := true }]
                          pointer := s.pointerAfter .requestPath byRotation } }))

/-- What a capture holds of a byte: inside the request's range the byte of the newest version of its line that the reader may
see and that holds it; outside the range, and where no such version holds it, nothing. -/
def Obligations.CaptureTakesTheNewestVisibleByte : Prop :=
  ∀ (s : State) (st : Stream) (r : Request) (o : Nat), o < 128 →
    let a := r.addr.toNat / 128 * 128 + o
    let line : Line := BitVec.ofNat 31 (a / 32)
    let visible : List SlotId := match s.entry line with
      | none => []
      | some e => if e.owner = some st then e.sealedPart ++ e.unsealedPart ++ e.openPart.toList else e.sealedPart
    (∀ id x, s.slot id = some x → x.cells.length = 32) →
      (s.captureCells st r).length = 128
      ∧ (s.captureCells st r)[o]? = some (if r.first ≤ a ∧ a < r.stop then
          (visible.reverse.findSome? fun id => ((s.slot id).bind fun x => (x.cells[a % 32]?).join)) else none)

/-- The issue of a checkpoint: its content is formed in the grant of its first half, to the copy other than the last, and it
answers the request that stands. -/
def Obligations.CheckpointIssueFormsTheAnchor : Prop :=
  ∀ (s : State) (f : Format) (pr : Profile) (byRotation : Bool), Live s → Granted s .serviceEngine byRotation →
    s.presentsCheckpoint = true → s.journal.format = some f →
    (if s.ckpt.request = some .resume then s.engine.activation else s.profile) = some pr →
    Leads .checkpointIssue s fun t =>
      let a : Anchor :=
        { stamp := f.stamp, code := f.code, number := s.ckpt.number + 1, tail := s.journal.liveTail
          through := s.ckpt.retiredThrough, nextGroup := s.groups.nextGroup, nextCommit := s.journal.nextCommit
          profile := pr }
      let copy := if s.ckpt.lastCopy = some .a then Copy.b else .a
      let r : MemRequest := { addr := anchorAddress s.abase copy false, op := .write (allPresent ((anchorBytes a).take 128)) }
      t.out = onlyIssue r ∧ Becomes t { s with
        ckpt := { s.ckpt with
          pending := false
          request := none
          inFlight := some { copy := copy, anchor := a, answers := s.ckpt.request, first := none, secondGranted := false } }
        mem := { s.mem with outstanding := s.mem.outstanding
                              ++ [{ purpose := .anchorHalf false false, request := r, live := true }]
                            pointer := s.pointerAfter .serviceEngine byRotation } }

/-- The other grants of the Service Engine, each issuing exactly one request and advancing its own work: the second half of the
anchor in flight; the halves of the rewrite of the retained anchor in CLEAR_FAULT's anchor step; what recovery presents; the
writes of FORMAT; the reads of DIGEST, block by block.
What recovery, FORMAT and DIGEST present, phase by phase, and when they present nothing: the anchor halves in order; scan,
walk and collection reads ascending with up to 8 outstanding, never past their ends; replay writes with up to 4 outstanding;
FORMAT's anchor B before anchor A, and A only after both halves of B.
That a RESTART or FORMAT in its drain presents nothing is R144's; which halves of a rewrite are presented follows log entry 12
where an earlier CLEAR_FAULT left one. The limit of 8 on a collection's reads is log entry 18's, R154 giving none; that a replay
write's enables are its slot's mask, as R155 says against R136's table, is log entry 24's; that only the reads of the running
DIGEST count toward its 8 is log entry 25's. -/
def Obligations.ServiceEngineGrants : Prop :=
  (∀ (s : State) (byRotation : Bool), Live s → Granted s .serviceEngine byRotation →
    (∀ f, s.presentedWork = some .checkpoint → s.ckpt.inFlight = some f → f.secondGranted = false →
      Leads .serviceRequestGrant s fun t =>
        let r := s.halfWrite f.copy f.anchor true
        t.out = onlyIssue r ∧ Becomes t { s.granted (.anchorHalf true false) r byRotation with
          ckpt := { s.ckpt with inFlight := some { f with secondGranted := true } } })
    ∧ (∀ a, s.presentedWork = some .checkpoint → s.ckpt.inFlight = none → s.ckpt.retained = some a →
      (s.ckpt.rewrite = none → s.engine.clear = some .anchor → Leads .serviceRequestGrant s fun t =>
        let r := s.halfWrite a.copy a.anchor false
        t.out = onlyIssue r ∧ Becomes t { s.granted (.anchorHalf false true) r byRotation with
          ckpt := { s.ckpt with rewrite := some { first := none, secondGranted := false, own := true } } })
      ∧ ∀ w, s.ckpt.rewrite = some w → w.own = true → w.secondGranted = false → Leads .serviceRequestGrant s fun t =>
          let r := s.halfWrite a.copy a.anchor true
          t.out = onlyIssue r ∧ Becomes t { s.granted (.anchorHalf true true) r byRotation with
            ckpt := { s.ckpt with rewrite := some { w with secondGranted := true } } })
    ∧ (∀ p r, s.presentedWork = some .recovery → s.recoveryRequest = some (p, r) →
      (p ≠ .replayWrite → Leads .serviceRequestGrant s fun t => t.out = onlyIssue r ∧ Becomes t (s.granted p r byRotation))
      ∧ ∀ q, p = .replayWrite → s.service.replay = some q → Leads .serviceRequestGrant s fun t =>
          t.out = onlyIssue r ∧ Becomes t { s.granted p r byRotation with
            service := { s.service with replay := some { q with nextPos := q.nextPos + 1 } } })
    ∧ (∀ w p r, s.presentedWork = some .format → s.service.format = some w → s.formatRequest = some (p, r) →
      Leads .serviceRequestGrant s fun t => t.out = onlyIssue r ∧ Becomes t { s.granted p r byRotation with
        service := { s.service with format := some { w with granted := w.granted + 1 } } })
    ∧ (∀ d, s.presentedWork = some .digest → s.service.digest = some d → d.next < d.stop →
      s.liveCount Purpose.isDigestRead < 8 →
      Leads .serviceRequestGrant s fun t =>
        let stop := min (d.next / 128 * 128 + 128) d.stop
        let r : MemRequest := { addr := BitVec.ofNat 36 d.next, op := .read (stop - d.next) }
        t.out = onlyIssue r ∧ Becomes t { s.granted .digestRead r byRotation with
          service := { s.service with digest := some { d with next := stop } } }))
  ∧ (∀ s : State, s.mem.draining = false → s.engine.state = .recovering →
    let rec' := s.service.recovery
    let room := s.outstandingOf .serviceEngine < 8
    (rec'.phase = some .anchors → ∀ i, i = rec'.anchorReads.length + s.liveCount Purpose.isAnchorRead →
      (i < 4 → s.recoveryRequest
        = some (.anchorRead, { addr := BitVec.ofNat 36 (journalBase s.abase + 128 * i), op := .read 128 }))
      ∧ (4 ≤ i → s.recoveryRequest = none))
    ∧ (∀ f seq, rec'.phase = some .scan → s.journal.format = some f →
      seq = rec'.cursor + BitVec.ofNat 32 (s.liveCount Purpose.isScanRead) →
      ((seq - rec'.tail).toNat < 1024 * 2 ^ f.code.toNat → room →
        s.recoveryRequest = some (.scanRead seq, s.recordReadAt f seq))
      ∧ (1024 * 2 ^ f.code.toNat ≤ (seq - rec'.tail).toNat ∨ ¬ room → s.recoveryRequest = none))
    ∧ (∀ f h seq, rec'.phase = some .replay → s.journal.format = some f → s.service.replay = none →
      rec'.scannedHead = some h → seq = rec'.cursor + BitVec.ofNat 32 (s.liveCount Purpose.isWalkRead) →
      ((seq - rec'.tail).toNat < (h - rec'.tail).toNat → room →
        s.recoveryRequest = some (.walkRead seq, s.recordReadAt f seq))
      ∧ ((h - rec'.tail).toNat ≤ (seq - rec'.tail).toNat ∨ ¬ room → s.recoveryRequest = none))
    ∧ (∀ f p seq, rec'.phase = some .replay → s.journal.format = some f → s.service.replay = some p → p.writing = false →
      seq = p.cursor + BitVec.ofNat 32 (s.liveCount Purpose.isCollectRead) →
      ((seq - rec'.tail).toNat < (p.seq - rec'.tail).toNat → room →
        s.recoveryRequest = some (.collectRead seq, s.recordReadAt f seq))
      ∧ ((p.seq - rec'.tail).toNat ≤ (seq - rec'.tail).toNat ∨ ¬ room → s.recoveryRequest = none))
    ∧ (∀ p g, rec'.phase = some .replay → s.service.replay = some p → p.writing = true → s.groups.replaying = some g →
      (∀ id x, g.entries[p.nextPos]? = some id → s.slot id = some x → s.liveCount Purpose.isReplayWrite < 4 →
        s.recoveryRequest = some (.replayWrite, { addr := BitVec.ofNat 36 (32 * x.line.toNat), op := .write x.cells }))
      ∧ (g.entries.length ≤ p.nextPos ∨ 4 ≤ s.liveCount Purpose.isReplayWrite → s.recoveryRequest = none))
    ∧ (rec'.phase = some .close ∨ rec'.phase = none → s.recoveryRequest = none))
  ∧ (∀ s : State, s.mem.draining = true ∨ s.engine.state ≠ .recovering → s.recoveryRequest = none)
  ∧ (∀ (s : State) (w : FormatWork), s.service.format = some w →
    (∀ pr, s.engine.activation = some pr → w.checked = true → s.mem.path = [] → w.granted < 4 →
      (2 ≤ w.granted → 2 ≤ w.acked) →
      let a : Anchor := { stamp := w.stamp, code := w.code, number := if w.granted < 2 then 1 else 2, tail := 0
                          through := 0, nextGroup := 1, nextCommit := 1, profile := pr }
      s.formatRequest = some (.formatWrite, s.halfWrite (if w.granted < 2 then .b else .a) a (w.granted % 2 = 1)))
    ∧ (w.checked = false ∨ s.mem.path ≠ [] ∨ 4 ≤ w.granted ∨ 2 ≤ w.granted ∧ w.acked < 2 → s.formatRequest = none))
  ∧ ∀ (s : State) (d : DigestRecord), s.service.digest = some d →
    d.stop ≤ d.next ∨ 8 ≤ s.liveCount Purpose.isDigestRead → s.digestRequest = none

/-! ### The Journal Writer, the Apply Engine and the Checkpoint Logic: completions -/

/-- The OK acknowledgement of an ENTRY or FILLER: the front record leaves the outstanding list, is durable and counted; its
group gains no field; emptied, the list may complete a quiesce.
The OK acknowledgement of a COMMIT seals its group in one event for all its lines: SEALED, the versions in the sealed part,
owners cleared where nothing unsealed is left, the withheld response ready OK, COMMITS counted, parked writes on released
lines owed a re-examination. -/
def Obligations.RecordAcknowledgementSealsAndCounts : Prop :=
  (∀ (s : State) (e : MemEntry) (rest : List MemEntry) (r : IssuedRecord) (more : List IssuedRecord), Live s →
    Awaits s e rest → e.purpose = .record → s.journal.outstanding = r :: more → r.kind ≠ .commit →
    ClearWaits s 0 →
    Leads .recordAcknowledgement s fun t => t.out = Outputs.none ∧ Becomes t { s with
      journal := { s.journal with outstanding := more }
      mem := { s.mem with outstanding := rest }
      mgmt := { s.mgmt with records := s.mgmt.records + 1 }
      ckpt := { s.ckpt with pending := s.ckpt.pending || quiesces s t
                            request := if quiesces s t then some .quiesce else s.ckpt.request } })
  ∧ (∀ (s : State) (e : MemEntry) (rest : List MemEntry) (r : IssuedRecord) (more : List IssuedRecord) (g : Machine.Group)
    (p : Place) (st : Stream), Live s → Awaits s e rest → e.purpose = .record → s.journal.outstanding = r :: more →
    r.kind = .commit → s.findGroup r.group = some g → ClearWaits s 0 →
    p ∈ (getV s.ports st).places → p.phase = .withheld g.ref →
    Leads .recordAcknowledgement s fun t => Answered t st p (.ok []) ∧ t.out.issued = none
      ∧ t.findGroup r.group = some { g with state := .sealed, commitResponse := none }
      ∧ (∀ o, (getV t.ports o).places = (departures ((getV s.ports o).places.map (Place.release g.ref))).2)
      ∧ t.index = s.index.map (fun e => e.becomeSealed g.entries)
      ∧ Owes s t (fun o w => w.kind = .conflict
          ∧ ∃ l ∈ s.heldLines o w, l ∈ releasedBy (fun e => e.becomeSealed g.entries) s.index)
      ∧ t.groups = s.groups.update r.group (fun g => { g with state := .sealed, commitResponse := none })
      ∧ t.mgmt = { s.mgmt with records := s.mgmt.records + 1, commits := s.mgmt.commits + 1 }
      ∧ Becomes t { s with
          groups := t.groups, ports := t.ports, index := t.index, holds := t.holds, mgmt := t.mgmt
          journal := { s.journal with outstanding := more }
          mem := { s.mem with outstanding := rest }
          ckpt := { s.ckpt with pending := s.ckpt.pending || quiesces s t
                                request := if quiesces s t then some .quiesce else s.ckpt.request } })

/-- The failure of a record's write: it moves to the end of the failed list, as FILLER when its group has been discarded; a
COMMIT's group becomes IN_DOUBT; outside FAULTED the engine becomes FAULTED with JOURNAL_WRITE.
Entering FAULTED queues FAULT, then declines every held write ENGINE_FAULT in ascending stream number and ends its hold; every
OPEN group but the failed COMMIT's own is kept (a COMMIT's group is not OPEN in any state a run reaches). In FAULTED the record and
the group go the same way, and the cause joins the cause set if it is new, which ends a running CLEAR_FAULT FAILED.
The order of the event records is log entry 11's, the zero item and test of the result log entry 12's. -/
def Obligations.RecordFailureFaults : Prop :=
  (∀ (s : State) (e : MemEntry) (rest : List MemEntry) (r : IssuedRecord) (more : List IssuedRecord), Live s →
    Awaits s e rest → e.purpose = .record → s.journal.outstanding = r :: more →
    s.engine.state = .online ∨ s.engine.state = .quiescing →
    Leads .recordFailure s fun t =>
      FaultEntered { s with
        journal := { s.journal with
          outstanding := more
          failed := s.journal.failed ++ [{ r with kind := if (s.findGroup r.group).isSome then r.kind else .filler }] }
        groups := if r.kind = .commit then s.groups.update r.group (fun g => { g with state := .inDoubt }) else s.groups
        mem := { s.mem with outstanding := rest } } t .journalWrite none (some s.engine.state)
      ∧ (r.kind = .commit → ∀ g, s.findGroup r.group = some g →
          t.findGroup r.group = some { g with state := .inDoubt }))
  ∧ (∀ (s : State) (e : MemEntry) (rest : List MemEntry) (r : IssuedRecord) (more : List IssuedRecord), Live s →
    Awaits s e rest → e.purpose = .record → s.journal.outstanding = r :: more →
    s.engine.state = .online ∨ s.engine.state = .quiescing →
    Leads .recordFailure s fun t => (∀ st, getV t.holds st = none)
      ∧ (∀ st, (s.openGroup? st = none → t.openGroup? st = none)
          ∧ ∀ g, s.openGroup? st = some g → (r.kind = .commit → g.ref ≠ r.group) → t.openGroup? st = some g)
      ∧ ∀ st h p, getV s.holds st = some h → s.place? st h.place = some p →
          Answered t st p (.declined .engineFault))
  ∧ (∀ (s : State) (e : MemEntry) (rest : List MemEntry) (r : IssuedRecord) (more : List IssuedRecord), Live s →
    Awaits s e rest → e.purpose = .record → s.journal.outstanding = r :: more → s.engine.state = .faulted →
    Leads .recordFailure s fun t => t.out = Outputs.none ∧ CauseJoins { s with
      journal := { s.journal with
        outstanding := more
        failed := s.journal.failed ++ [{ r with kind := if (s.findGroup r.group).isSome then r.kind else .filler }] }
      groups := if r.kind = .commit then s.groups.update r.group (fun g => { g with state := .inDoubt }) else s.groups
      mem := { s.mem with outstanding := rest } } t .journalWrite)

/-- The head of the commit pipeline starts to apply when it is SEALED, nobody is APPLYING, and the engine is ONLINE, QUIESCING or
FAULTED with no RESTART taken; otherwise nothing happens.
The OK acknowledgement of a home write that is not the last of its attempt: outstanding falls, acknowledged rises. After the
first failure it only lowers outstanding; and when CLEAR_FAULT's apply step has waited for the last of them, the new attempt
begins in that event.
That no group starts to apply in the drain of a FORMAT from FAULTED is the model's reading (log entry 22). -/
def Obligations.ApplyStartsAndCounts : Prop :=
  (∀ s : State, Live s →
    (∀ g more, s.apply = none → s.groups.pipeline = g :: more → g.state = .sealed → s.mem.draining = false →
      s.engine.state = .online ∨ s.engine.state = .quiescing ∨ s.engine.state = .faulted →
      Leads .startOfApply s fun t => t.out = Outputs.none ∧ Becomes t { s with
        groups := s.groups.update g.ref fun x => { x with state := .applying }
        apply := some { group := g.ref, nextPos := 0, outstanding := 0, acked := 0, stopped := false } })
    ∧ (s.apply.isSome ∨ (∀ g more, s.groups.pipeline = g :: more → g.state ≠ .sealed) ∨ s.engine.state = .recovering
        ∨ s.engine.state = .unformatted ∨ s.engine.state = .quiesced ∨ s.mem.draining = true →
      Leads .startOfApply s (Untouched s)))
  ∧ (∀ (s : State) (e : MemEntry) (rest : List MemEntry) (a : ApplyRecord), Live s → Awaits s e rest →
    e.purpose = .homeWrite → s.apply = some a → ClearWaits s 1 →
    a.stopped = true ∨ a.acked + 1 ≠ s.applyLength a →
    Leads .homeWriteAcknowledgement s fun t => t.out = Outputs.none ∧ Becomes t { s with
      apply := some { a with outstanding := a.outstanding - 1, acked := if a.stopped then a.acked else a.acked + 1 }
      mem := { s.mem with outstanding := rest } })
  ∧ (∀ (s : State) (e : MemEntry) (rest : List MemEntry) (a : ApplyRecord), Live s → Awaits s e rest →
    e.purpose = .homeWrite → s.apply = some a → a.stopped = true → a.outstanding = 1 → s.engine.clear = some (.apply false) →
    Leads .homeWriteAcknowledgement s fun t => t.out = Outputs.none ∧ Becomes t { s with
      apply := some { a with nextPos := 0, outstanding := 0, acked := 0, stopped := false }
      engine := { s.engine with clear := some (.apply true) }
      mem := { s.mem with outstanding := rest } })

/-- The last OK acknowledgement retires the group: its slots join the tail of the free list in entry-list order and lose their
content, its versions leave the index, it leaves the pipeline, the Apply Engine is empty, retired-through is its commit
number, the live tail is recomputed without it, SPACE and PIPELINE holds are owed a re-examination. In the apply step of
CLEAR_FAULT APPLY_WRITE then leaves the cause set and the anchor step begins in the same event.
A step that finds nothing to do, and the zero item and test of the result, are log entry 12's; the order of the event records at
the end of CLEAR_FAULT is log entry 11's. -/
def Obligations.LastHomeWriteRetiresTheGroup : Prop :=
  ∀ (s : State) (e : MemEntry) (rest : List MemEntry) (a : ApplyRecord) (g : Machine.Group) (n : Word), Live s →
    Awaits s e rest → e.purpose = .homeWrite → s.apply = some a → a.stopped = false → s.findGroup a.group = some g →
    a.acked + 1 = g.entries.length → g.commitNumber = some n →
    (s.engine.clear = none ∨ s.engine.clear = some .anchor ∨ (∃ own, s.engine.clear = some (.journal own)) ∧ s.journal.failed ≠ [] →
      Leads .homeWriteAcknowledgement s fun t => t.out = Outputs.none ∧ Retires s t g n rest)
    ∧ ∀ started, s.engine.clear = some (.apply started) → s.mgmt.running = some .clearFault →
        Leads .homeWriteAcknowledgement s fun t => t.out = Outputs.none ∧ ∃ u, Retires s u g n rest
          ∧ AnchorStepBegins { u with engine := u.engine.without .applyWrite } t

/-- The first failure of an attempt stops it and is reported: outside FAULTED the engine becomes FAULTED with APPLY_WRITE, the
group stays APPLYING with its slots and versions; a later failure of the attempt only lowers outstanding, and the one that
CLEAR_FAULT's apply step has waited for lets the new attempt begin.
A further cause joins the cause set of a FAULTED engine, is announced, and ends a running CLEAR_FAULT FAILED; a cause already
there changes nothing. The failure of a home write of CLEAR_FAULT's own attempt ends it FAILED with the cause set as it was.
Entering FAULTED queues FAULT, then declines every held write ENGINE_FAULT in ascending stream number and ends its hold.
The order of the event records is log entry 11's, the zero item and test of the result log entry 12's. -/
def Obligations.ApplyFailureFaults : Prop :=
  (∀ (s : State) (e : MemEntry) (rest : List MemEntry) (a : ApplyRecord), Live s → Awaits s e rest →
    e.purpose = .homeWrite → s.apply = some a →
    (a.stopped = false → s.engine.clear = none → s.engine.state = .online ∨ s.engine.state = .quiescing →
      Leads .applyFailure s fun t =>
        FaultEntered { s with
          apply := some { a with outstanding := a.outstanding - 1, stopped := true }
          mem := { s.mem with outstanding := rest } } t .applyWrite none (some s.engine.state)
        ∧ ∀ st h p, getV s.holds st = some h → s.place? st h.place = some p → Answered t st p (.declined .engineFault))
    ∧ (a.stopped = true → ClearWaits s 1 → Leads .applyFailure s fun t => t.out = Outputs.none ∧ Becomes t { s with
        apply := some { a with outstanding := a.outstanding - 1 }, mem := { s.mem with outstanding := rest } })
    ∧ (a.stopped = true → a.outstanding = 1 → s.engine.clear = some (.apply false) →
      Leads .applyFailure s fun t => t.out = Outputs.none ∧ Becomes t { s with
        apply := some { a with nextPos := 0, outstanding := 0, acked := 0, stopped := false }
        engine := { s.engine with clear := some (.apply true) }
        mem := { s.mem with outstanding := rest } }))
  ∧ (∀ (s : State) (e : MemEntry) (rest : List MemEntry) (a : ApplyRecord), Live s → Awaits s e rest →
    e.purpose = .homeWrite → s.apply = some a → a.stopped = false → s.engine.state = .faulted →
    let u : State := { s with
      apply := some { a with outstanding := a.outstanding - 1, stopped := true }
      mem := { s.mem with outstanding := rest } }
    (s.engine.clear = none ∨ .applyWrite ∉ s.engine.causes → s.engine.clear ≠ some (.apply true) →
      Leads .applyFailure s fun t => t.out = Outputs.none ∧ CauseJoins u t .applyWrite)
    ∧ (s.engine.clear = some (.apply true) → s.mgmt.running = some .clearFault →
      Leads .applyFailure s fun t => t.out = Outputs.none ∧ Becomes t u.clearFailed))

/-- A checkpoint whose halves were both acknowledged OK: durable tail, number and copy are the anchor's, the flight is over, SPACE
holds are owed a re-examination, the distance trigger is evaluated; and the request it answers is told of success: QUIESCED
after a quiesce, the activation copy active and ONLINE after RESUME, ONLINE at the end of recovery, which ends a RESTART that
runs DONE.
The order of the event records is log entry 11's, the zero item and test of the result log entry 12's. -/
def Obligations.CheckpointAcknowledgementMovesTheTail : Prop :=
  ∀ (s : State) (e : MemEntry) (rest : List MemEntry) (f : Flight), Live s → Awaits s e rest →
    e.purpose = .anchorHalf true false → s.ckpt.inFlight = some f → f.first = some .ok →
    (f.answers = none ∨ f.answers = some .quiesce ∧ s.engine.state = .quiescing
      ∨ f.answers = some .resume ∧ s.engine.state = .quiesced ∧ s.mgmt.running = some .resume ∧ s.engine.activation.isSome
      ∨ f.answers = some .recovery ∧ s.engine.state = .recovering) →
    Leads .checkpointAcknowledgement s fun t => t.out = Outputs.none
      ∧ t.ckpt = { s.ckpt with
          durableTail := f.anchor.tail, number := f.anchor.number, lastCopy := some f.copy, inFlight := none
          pending := s.ckpt.pending || t.distanceHolds }
      ∧ Owes s t (fun _ w => w.kind = .space ∨ w.kind = .quiesce ∧ f.answers = some .resume)
      ∧ t.mem = { s.mem with outstanding := rest } ∧ SameTables s t ∧ t.journal = s.journal ∧ t.apply = s.apply
      ∧ t.ports = s.ports ∧ SamePins s t
      ∧ t.service.recovery = (if f.answers = some .recovery then { s.service.recovery with phase := none }
          else s.service.recovery)
      ∧ t.engine = (match f.answers with
          | none => s.engine
          | some .quiesce => { s.engine with state := .quiesced }
          | some .resume => { s.engine with state := .online, activation := none }
          | some .recovery => { s.engine with state := .online })
      ∧ t.profile = (if f.answers = some .resume then s.engine.activation else s.profile)
      ∧ t.mgmt = (match f.answers with
          | none => s.mgmt
          | some .quiesce => s.mgmt.push (.state .quiesced)
          | some .resume => (s.mgmt.push (.state .online)).ended .resume .done
          | some .recovery => (s.mgmt.push (.recoveryDone s.service.recovery.groupsReplayed)).restartEnds .done)

/-- The first half's completion is only noted. When the second half completes and either half had an error the checkpoint fails:
durable tail, number and copy stay, the anchor is retained, CHECKPOINT_WRITE enters FAULTED, or joins the cause set in FAULTED,
which ends a running CLEAR_FAULT FAILED; the failure of recovery's closing checkpoint enters FAULTED with return state ONLINE
and ends a RESTART that runs FAILED.
The same of the rewrite of the retained anchor: its first half is noted; a half that fails ends the CLEAR_FAULT that issued it
FAILED, the retained anchor kept.
Entering FAULTED queues FAULT, then declines every held write ENGINE_FAULT in ascending stream number and ends its hold; a RESUME
that the checkpoint answered ends FAILED.
A rewrite whose CLEAR_FAULT has ended, and the zero item and test of the result, are log entry 12's; the order of the event
records is log entry 11's. -/
def Obligations.CheckpointFailureRetainsTheAnchor : Prop :=
  (∀ (s : State) (e : MemEntry) (rest : List MemEntry) (f : Flight), Live s → Awaits s e rest → s.ckpt.inFlight = some f →
    (∀ st, e.purpose = .anchorHalf false false → Leads (.anchorFirstHalfCompletion st) s fun t => t.out = Outputs.none
      ∧ Becomes t { s with ckpt := { s.ckpt with inFlight := some { f with first := some st } }
                           mem := { s.mem with outstanding := rest } })
    ∧ (∀ second, e.purpose = .anchorHalf true false → second = .error ∨ f.first = some .error →
        s.engine.state = .online ∨ s.engine.state = .quiescing ∨ s.engine.state = .quiesced →
        Leads (.checkpointFailure second) s fun t =>
          FaultEntered { s with
            ckpt := { s.ckpt with
              inFlight := none, retained := some { copy := f.copy, anchor := f.anchor, answers := f.answers } }
            mem := { s.mem with outstanding := rest } } t .checkpointWrite f.answers
            (some (if s.engine.state = .quiesced ∧ f.answers = some .resume then .online else s.engine.state))
          ∧ (f.answers = some .resume → s.mgmt.running = some .resume →
              t.mgmt.running = none ∧ t.mgmt.result.result = .failed)
          ∧ ∀ st h p, getV s.holds st = some h → s.place? st h.place = some p → Answered t st p (.declined .engineFault))
    ∧ ∀ second, e.purpose = .anchorHalf true false → second = .error ∨ f.first = some .error →
        let u : State := { s with
          ckpt := { s.ckpt with
            inFlight := none, retained := some { copy := f.copy, anchor := f.anchor, answers := f.answers } }
          mem := { s.mem with outstanding := rest } }
        (s.engine.state = .faulted → Leads (.checkpointFailure second) s fun t =>
          t.out = Outputs.none ∧ CauseJoins u t .checkpointWrite)
        ∧ (s.engine.state = .recovering → f.answers = some .recovery → (∀ st, getV s.holds st = none) →
          Leads (.checkpointFailure second) s fun t => t.out = Outputs.none ∧ Becomes t { u with
            engine := s.engine.faultedWith .checkpointWrite (some .online)
            mgmt := (s.mgmt.push (.fault .checkpointWrite)).restartEnds .failed }))
  ∧ (∀ (s : State) (e : MemEntry) (rest : List MemEntry) (w : Rewrite), Live s → Awaits s e rest →
    s.ckpt.rewrite = some w →
    let u (x : Option Rewrite) : State :=
      { s with ckpt := { s.ckpt with rewrite := x }, mem := { s.mem with outstanding := rest } }
    (e.purpose = .anchorHalf false true → w.own = true →
      Leads (.anchorFirstHalfCompletion .ok) s (fun t => t.out = Outputs.none
        ∧ Becomes t (u (some { w with first := some .ok })))
      ∧ (s.mgmt.running = some .clearFault → Leads (.anchorFirstHalfCompletion .error) s fun t => t.out = Outputs.none
        ∧ Becomes t (u (some { w with first := some .error })).clearFailed))
    ∧ ∀ second, e.purpose = .anchorHalf true true → second = .error ∨ w.first = some .error →
        (w.own = true → s.mgmt.running = some .clearFault → Leads (.checkpointFailure second) s fun t =>
          t.out = Outputs.none ∧ Becomes t (u none).clearFailed)
        ∧ (w.own = false → Leads (.checkpointFailure second) s fun t => t.out = Outputs.none ∧ Becomes t (u none)))

/-! ### The request path and the drain -/

/-- The completion of a pass-through request: OK with the memory's data, or DECLINED MEMORY_ERROR; nothing else changes.
The data of a merged read's home read: each byte of the response is the overlay byte where the overlay holds one, the home
byte elsewhere; the buffer is MERGED. An error is DECLINED MEMORY_ERROR and frees the buffer. -/
def Obligations.RequestPathCompletions : Prop :=
  (∀ (s : State) (e : MemEntry) (rest : List MemEntry) (st : Stream) (i : Fin 4) (p : Place), Live s → Awaits s e rest →
    e.purpose = .passThrough st i → s.place? st i = some p →
    (∀ data, e.request.fits (.ok data) = true → Leads (.passThroughCompletion (.ok data)) s fun t =>
      Answered t st p (.ok data) ∧ Settles s t st (Place.answer i (.ok data)) ∧ t.out.issued = none
        ∧ Becomes t { s with ports := t.ports, mem := { s.mem with outstanding := rest } })
    ∧ Leads (.passThroughCompletion .error) s fun t =>
      Declined s t st p .memoryError ∧ Settles s t st (Place.refuse i .memoryError) ∧ t.out.issued = none
        ∧ Becomes t { s with ports := t.ports, mgmt := t.mgmt, mem := { s.mem with outstanding := rest } })
  ∧ (∀ (s : State) (e : MemEntry) (rest : List MemEntry) (st : Stream) (i : Fin 4) (p : Place) (b : Overlay), Live s →
    Awaits s e rest → e.purpose = .homeRead st i → s.place? st i = some p → p.buffer = some b → b.cells.length = 128 →
    (∀ data, e.request.fits (.ok data) = true → data.length = p.request.op.length → p.request.crossesBlock = false →
      Leads (.homeReadDataReturn (.ok data)) s fun t => ∃ result, Answered t st p (.ok result)
        ∧ result.length = p.request.op.length
        ∧ (∀ k, k < result.length → result[k]? = (data[k]?).map fun home =>
            ((b.cells[p.request.addr.toNat % 128 + k]?).join).getD home)
        ∧ Settles s t st (fun q => if q.index = i then Place.merge data q else q) ∧ t.out.issued = none
        ∧ Becomes t { s with ports := t.ports, mem := { s.mem with outstanding := rest } })
    ∧ Leads (.homeReadDataReturn .error) s fun t =>
      Declined s t st p .memoryError ∧ Settles s t st (Place.refuse i .memoryError) ∧ t.out.issued = none
        ∧ Becomes t { s with ports := t.ports, mgmt := t.mgmt, mem := { s.mem with outstanding := rest } })

/-- In a drain a completion only removes the front entry; the one that empties the list is followed by the clearing: recovery
begins after RESTART, which keeps the retired-through number; the checks are made for FORMAT, which sets it to 0 and empties the
cause set.
The zero item and test of a result other than PROFILE_INVALID are log entry 12's; that FORMAT's clearing keeps the return state, a
pending quiesce and, when the checks fail, an activation copy is log entry 14's. -/
def Obligations.DrainDiscardsAndClears : Prop :=
  ∀ (s : State) (e : MemEntry) (rest : List MemEntry), Live s → s.mem.draining = true → s.mem.outstanding = e :: rest →
    (rest ≠ [] → Leads .drainCompletion s fun t => t.out = Outputs.none
      ∧ Becomes t { s with mem := { s.mem with outstanding := rest } })
    ∧ (rest = [] → s.service.format = none → Leads .drainCompletion s fun t => Cleared s t s.ckpt.retiredThrough
      ∧ t.service.format = none
      ∧ t.ports = s.ports ∧ t.profile = s.profile ∧ t.engine = s.engine ∧ t.mgmt = s.mgmt ∧ t.out = Outputs.none
      ∧ SamePins s t)
    ∧ ∀ w, rest = [] → s.mgmt.running = some .format → s.service.format = some w →
        Leads .drainCompletion s fun t => Cleared s t 0 ∧ t.profile = s.profile ∧ t.ports = s.ports ∧ SamePins s t
          ∧ t.out = Outputs.none ∧ FormatChecked s t w s.mgmt

/-! ### Recovery -/

/-- The anchor reads: kept as they complete; an error ends recovery in FAULTED with RECOVERY_READ, profile and format absent; at
the fourth the anchors are tested: B when it alone is valid or carries the later number, A otherwise, UNFORMATTED when
neither is valid; the chosen anchor's contents are loaded and phase SCAN begins at its durable tail. An end of recovery ends a
RESTART that runs: DONE in UNFORMATTED, FAILED in FAULTED.
The order of FAULT and COMMAND_DONE is log entry 11's, the zero item and test of the result log entry 12's; that an end in
UNFORMATTED empties the fault record is log entry 18's. -/
def Obligations.AnchorReadsChooseAndLoad : Prop :=
  ∀ (s : State) (e : MemEntry) (rest : List MemEntry), Live s → Awaits s e rest → e.purpose = .anchorRead →
    s.engine.state = .recovering →
    (∀ data, e.request.fits (.ok data) = true → s.service.recovery.anchorReads.length < 3 →
      Leads (.anchorReadCompletion (.ok data)) s fun t => t.out = Outputs.none ∧ Becomes t { s with
        mem := { s.mem with outstanding := rest }
        service := { s.service with recovery := { s.service.recovery with
          anchorReads := s.service.recovery.anchorReads ++ [.ok data] } } })
    ∧ ((∀ st, getV s.holds st = none) → Leads (.anchorReadCompletion .error) s fun t =>
        t.profile = none ∧ t.journal = { s.journal with format := none }
        ∧ t.engine = s.engine.faultedWith .recoveryRead none ∧ t.mgmt = (s.mgmt.push (.fault .recoveryRead)).restartEnds .failed
        ∧ t.mem = { s.mem with outstanding := ignoring Purpose.isRecovery rest } ∧ SameTables s t ∧ t.ckpt = s.ckpt)
    ∧ ∀ a0 a1 b0 b1, s.service.recovery.anchorReads = [.ok a0, .ok a1, .ok b0] → e.request.fits (.ok b1) = true →
        (readAnchor (a0 ++ a1) = none → readAnchor (b0 ++ b1) = none →
          Leads (.anchorReadCompletion (.ok b1)) s fun t => t.engine.state = .unformatted ∧ t.profile = none
            ∧ t.journal = { s.journal with format := none } ∧ t.ckpt = CheckpointLogic.coldReset
            ∧ t.mgmt = s.mgmt.restartEnds .done
            ∧ SameTables s t ∧ t.mem = { s.mem with outstanding := rest } ∧ t.ports = s.ports)
        ∧ ∀ copy a,
            (copy = .a ∧ readAnchor (a0 ++ a1) = some a
                ∧ (∀ b, readAnchor (b0 ++ b1) = some b → later b.number a.number = false)
              ∨ copy = .b ∧ readAnchor (b0 ++ b1) = some a
                ∧ (∀ x, readAnchor (a0 ++ a1) = some x → later a.number x.number = true)) →
            Leads (.anchorReadCompletion (.ok b1)) s fun t =>
              t.journal = { s.journal with format := some { code := a.code, stamp := a.stamp }
                                           nextCommit := a.nextCommit, head := a.tail, liveTail := a.tail }
              ∧ t.profile = some a.profile ∧ t.groups = { s.groups with nextGroup := a.nextGroup }
              ∧ t.ckpt = { s.ckpt with number := a.number, lastCopy := some copy, durableTail := a.tail
                                       retiredThrough := a.through }
              ∧ t.service.recovery.phase = some .scan ∧ t.service.recovery.chosen = some copy
              ∧ t.service.recovery.tail = a.tail ∧ t.service.recovery.through = a.through
              ∧ t.service.recovery.cursor = a.tail ∧ t.engine = s.engine ∧ t.mgmt = s.mgmt ∧ t.pool = s.pool
              ∧ t.index = s.index ∧ t.mem = { s.mem with outstanding := rest } ∧ t.ports = s.ports

/-- The scan: a valid record moves the cursor and the latest numbers, and the one before T + N fixes H there; the first record
that is not valid fixes H at it, and at T, the ring being clean, replay ends in the same event: the counters, tails and head are
set and the closing checkpoint is asked for. A read error ends recovery in FAULTED with RECOVERY_MISMATCH and a RESTART that
runs FAILED.
That an empty range closes in the event that fixes H is log entry 18's.
The order of FAULT and COMMAND_DONE is log entry 11's, the zero item and test of the result log entry 12's. -/
def Obligations.ScanStopsAtTheFirstInvalidRecord : Prop :=
  ∀ (s : State) (e : MemEntry) (rest : List MemEntry) (seq : Word) (f : Format), Live s → Awaits s e rest →
    e.purpose = .scanRead seq → s.engine.state = .recovering → s.service.recovery.phase = some .scan →
    s.journal.format = some f →
    (∀ data x, e.request.fits (.ok data) = true → readRecord f.stamp seq data = some x →
      Leads (.scanReadCompletion (.ok data)) s fun t =>
        let seen := { s.service.recovery with
          cursor := seq + 1
          latestGroup := (match x with
            | .entry _ g _ _ => latest s.service.recovery.latestGroup g
            | .commit _ g _ _ _ => latest s.service.recovery.latestGroup g
            | .filler => s.service.recovery.latestGroup)
          latestCommit := (match x with
            | .commit _ _ n _ _ => latest s.service.recovery.latestCommit n
            | .entry _ _ _ _ => s.service.recovery.latestCommit
            | .filler => s.service.recovery.latestCommit) }
        t.out = Outputs.none
        ∧ ((seq + 1 - seen.tail).toNat ≠ Machine.ringSize f.code → Becomes t { s with
            mem := { s.mem with outstanding := rest }
            service := { s.service with recovery := seen } })
        ∧ ((seq + 1 - seen.tail).toNat = Machine.ringSize f.code → Becomes t { s with
            mem := { s.mem with outstanding := ignoring Purpose.isScanRead rest }
            service := { s.service with
              recovery := { seen with phase := some .replay, scannedHead := some (seq + 1), cursor := seen.tail } } }))
    ∧ (∀ data, e.request.fits (.ok data) = true → readRecord f.stamp seq data = none →
      Leads (.scanReadCompletion (.ok data)) s fun t =>
        let u : State := { s with
          mem := { s.mem with outstanding := ignoring Purpose.isScanRead rest }
          service := { s.service with recovery := { s.service.recovery with
            phase := some .replay, scannedHead := some seq, cursor := s.service.recovery.tail } } }
        t.out = Outputs.none ∧ (seq ≠ s.service.recovery.tail → Becomes t u)
        ∧ (seq = s.service.recovery.tail → Becomes t (u.replayEnds seq)))
    ∧ ((∀ st, getV s.holds st = none) → Leads (.scanReadCompletion .error) s fun t =>
        t.out = Outputs.none ∧ Becomes t { s with
          engine := s.engine.faultedWith .recoveryMismatch none
          mgmt := (s.mgmt.push (.fault .recoveryMismatch)).restartEnds .failed
          mem := { s.mem with outstanding := ignoring Purpose.isRecovery rest } })

/-- The walk: ENTRY and FILLER records and COMMITs not later than C are passed over; a later COMMIT begins the replay of its group
with a descriptor filled from it, and one at T, with nothing to collect, comes to its count check in the same event; a record that
is not valid ends recovery in FAULTED with RECOVERY_MISMATCH; at H the counters, the tails and the head are set and the closing
checkpoint is asked for.
That failure ends a RESTART that runs FAILED.
The low three bits of the stream byte, that the walk's other reads in flight at a replay are ignored, and a COMMIT with counts of
0 are log entry 18's; the order of FAULT and COMMAND_DONE is log entry 11's, the zero item and test of the result log entry 12's. -/
def Obligations.WalkReplaysLaterCommits : Prop :=
  ∀ (s : State) (e : MemEntry) (rest : List MemEntry) (seq h : Word) (f : Format), Live s → Awaits s e rest →
    e.purpose = .walkRead seq → s.engine.state = .recovering → s.service.recovery.phase = some .replay →
    s.service.recovery.scannedHead = some h → s.journal.format = some f →
    (∀ data x, e.request.fits (.ok data) = true → readRecord f.stamp seq data = some x →
      (∀ st g n ec sc, x = .commit st g n ec sc → later n s.service.recovery.through = false) →
      Leads (.walkReadCompletion (.ok data)) s fun t => t.out = Outputs.none
        ∧ (seq + 1 ≠ h → Becomes t { s with
            mem := { s.mem with outstanding := rest }
            service := { s.service with recovery := { s.service.recovery with cursor := seq + 1 } } })
        ∧ (seq + 1 = h → Becomes t (State.replayEnds { s with
            mem := { s.mem with outstanding := rest }
            service := { s.service with recovery := { s.service.recovery with cursor := seq + 1 } } } h)))
    ∧ (∀ data st g n ec sc, e.request.fits (.ok data) = true →
      readRecord f.stamp seq data = some (.commit st g n ec sc) → later n s.service.recovery.through = true →
      seq ≠ s.service.recovery.tail →
      Leads (.walkReadCompletion (.ok data)) s fun t => t.out = Outputs.none ∧ ∃ d,
        FilledFrom d s.groups.nextRef st g n ec ∧ Becomes t { s with
          groups := { s.groups with replaying := some d, nextRef := s.groups.nextRef + 1 }
          mem := { s.mem with outstanding := ignoring Purpose.isWalkRead rest }
          service := { s.service with
            recovery := { s.service.recovery with cursor := seq + 1 }
            replay := some { seq := seq, stream := st, entryCount := ec, slotCount := sc, cursor := s.service.recovery.tail
                             matched := 0, writing := false, nextPos := 0, acked := 0 } } })
    ∧ ((∀ st, getV s.holds st = none) → ∀ data st g n ec sc, e.request.fits (.ok data) = true →
      readRecord f.stamp seq data = some (.commit st g n ec sc) → later n s.service.recovery.through = true →
      seq = s.service.recovery.tail →
      Leads (.walkReadCompletion (.ok data)) s fun t => ∃ d, FilledFrom d s.groups.nextRef st g n ec
        ∧ CountCheck { s with
            groups := { s.groups with nextRef := s.groups.nextRef + 1 }
            service := { s.service with recovery := { s.service.recovery with cursor := seq + 1 } } } t
            { seq := seq, stream := st, entryCount := ec, slotCount := sc, cursor := seq
              matched := 0, writing := false, nextPos := 0, acked := 0 } d s.pool (ignoring Purpose.isWalkRead rest))
    ∧ ((∀ st, getV s.holds st = none) → ∀ c, e.request.fits c = true →
      (∀ data, c = .ok data → readRecord f.stamp seq data = none) →
      Leads (.walkReadCompletion c) s fun t => t.out = Outputs.none ∧ Becomes t { s with
          engine := s.engine.faultedWith .recoveryMismatch none
          mgmt := (s.mgmt.push (.fault .recoveryMismatch)).restartEnds .failed
          mem := { s.mem with outstanding := ignoring Purpose.isRecovery rest } })

/-- The collection of a group's lines: a matching ENTRY counts and puts its content into the slot of its line, a new slot taken
from the head of the free list when none holds it; any other valid record only moves on; more lines than the COMMIT's slot
count, or a record that is not valid, end recovery in FAULTED with RECOVERY_MISMATCH.
The count check at the COMMIT: with the counts of the COMMIT the group's home writes begin; otherwise recovery ends in FAULTED
with RECOVERY_MISMATCH, the descriptor and its slots left in use. The last record before the COMMIT may be a matching ENTRY,
which is collected first, or any other valid record. An end in FAULTED ends a RESTART that runs FAILED.
The order of FAULT and COMMAND_DONE is log entry 11's, the zero item and test of the result log entry 12's; that a COMMIT with
counts of 0 is replayed in the event of its count check is log entry 18's. -/
def Obligations.CollectionFillsAndCounts : Prop :=
  (∀ (s : State) (e : MemEntry) (rest : List MemEntry) (seq : Word) (f : Format) (p : Replay) (g : Machine.Group), Live s →
    Awaits s e rest → e.purpose = .collectRead seq → s.engine.state = .recovering → s.journal.format = some f →
    s.service.replay = some p → s.groups.replaying = some g → (∀ st, getV s.holds st = none) →
    (∀ data st n l cells, e.request.fits (.ok data) = true → readRecord f.stamp seq data = some (.entry st n l cells) →
      st = p.stream → n = g.number → seq + 1 ≠ p.seq →
      (∀ id, s.slotFor g l = some id → Leads (.walkReadCompletion (.ok data)) s fun t => t.out = Outputs.none ∧ Becomes t
        { s with
          pool := { s.pool with slots := setV s.pool.slots id (some { line := l, cells := cells, group := g.ref }) }
          mem := { s.mem with outstanding := rest }
          service := { s.service with replay := some { p with cursor := seq + 1, matched := p.matched + 1 } } })
      ∧ (∀ id free, s.slotFor g l = none → s.pool.free = id :: free → g.entries.length + 1 ≤ p.slotCount.toNat →
          Leads (.walkReadCompletion (.ok data)) s fun t => t.out = Outputs.none ∧ Becomes t { s with
            pool := { slots := setV s.pool.slots id (some { line := l, cells := cells, group := g.ref }), free := free }
            groups := { s.groups with replaying := some { g with entries := g.entries ++ [id] } }
            mem := { s.mem with outstanding := rest }
            service := { s.service with replay := some { p with cursor := seq + 1, matched := p.matched + 1 } } }))
    ∧ (∀ data x, e.request.fits (.ok data) = true → readRecord f.stamp seq data = some x →
      (∀ l cells, x ≠ .entry p.stream g.number l cells) → seq + 1 ≠ p.seq →
      Leads (.walkReadCompletion (.ok data)) s fun t => t.out = Outputs.none ∧ Becomes t { s with
        mem := { s.mem with outstanding := rest }
        service := { s.service with replay := some { p with cursor := seq + 1 } } })
    ∧ ∀ c, e.request.fits c = true →
      ((∀ data, c = .ok data → readRecord f.stamp seq data = none)
        ∨ ∃ data l cells, c = .ok data ∧ readRecord f.stamp seq data = some (.entry p.stream g.number l cells)
            ∧ s.slotFor g l = none ∧ p.slotCount.toNat < g.entries.length + 1) →
      Leads (.walkReadCompletion c) s fun t =>
        t.engine = s.engine.faultedWith .recoveryMismatch none ∧ t.mgmt = (s.mgmt.push (.fault .recoveryMismatch)).restartEnds .failed
        ∧ t.mem = { s.mem with outstanding := ignoring Purpose.isRecovery rest } ∧ SameTables s t)
  ∧ (∀ (s : State) (e : MemEntry) (rest : List MemEntry) (seq : Word) (f : Format) (p : Replay) (g : Machine.Group)
    (data : List Byte) (x : Record), Live s → Awaits s e rest → e.purpose = .collectRead seq → s.engine.state = .recovering →
    s.journal.format = some f → s.service.replay = some p → s.groups.replaying = some g → (∀ st, getV s.holds st = none) →
    e.request.fits (.ok data) = true → readRecord f.stamp seq data = some x → seq + 1 = p.seq →
    ((∀ l cells, x ≠ .entry p.stream g.number l cells) → Leads (.walkReadCompletion (.ok data)) s fun t =>
      CountCheck s t { p with cursor := seq + 1 } g s.pool rest)
    ∧ ∀ l cells, x = .entry p.stream g.number l cells →
        let q := { p with cursor := seq + 1, matched := p.matched + 1 }
        let content : Machine.Slot := { line := l, cells := cells, group := g.ref }
        (∀ id, s.slotFor g l = some id → Leads (.walkReadCompletion (.ok data)) s fun t =>
          CountCheck s t q g { s.pool with slots := setV s.pool.slots id (some content) } rest)
        ∧ ∀ id free, s.slotFor g l = none → s.pool.free = id :: free → g.entries.length + 1 ≤ p.slotCount.toNat →
            Leads (.walkReadCompletion (.ok data)) s fun t =>
              CountCheck s t q { g with entries := g.entries ++ [id] }
                { slots := setV s.pool.slots id (some content), free := free } rest)

/-- The acknowledgements of a replay's home writes: the last one returns the slots to the tail of the free list and frees the
descriptor, the group is replayed in full and the walk resumes, ending replay at once when it stands at H; an error ends recovery
in FAULTED with REPLAY_WRITE and a RESTART that runs FAILED.
The order of FAULT and COMMAND_DONE is log entry 11's, the zero item and test of the result log entry 12's. -/
def Obligations.ReplayWritesFinishTheGroup : Prop :=
  ∀ (s : State) (e : MemEntry) (rest : List MemEntry) (p : Replay) (g : Machine.Group) (h : Word), Live s → Awaits s e rest →
    e.purpose = .replayWrite → s.service.replay = some p → s.groups.replaying = some g →
    s.service.recovery.scannedHead = some h →
    (p.acked + 1 ≠ g.entries.length → Leads (.replayWriteCompletion .ok) s fun t => t.out = Outputs.none ∧ Becomes t { s with
      mem := { s.mem with outstanding := rest }
      service := { s.service with replay := some { p with acked := p.acked + 1 } } })
    ∧ (p.acked + 1 = g.entries.length → Leads (.replayWriteCompletion .ok) s fun t =>
        t.out = Outputs.none ∧ Replayed { s with mem := { s.mem with outstanding := rest } } t g h)
    ∧ (s.engine.state = .recovering → (∀ st, getV s.holds st = none) →
      Leads (.replayWriteCompletion .error) s fun t => t.out = Outputs.none ∧ Becomes t { s with
          engine := s.engine.faultedWith .replayWrite none
          mgmt := (s.mgmt.push (.fault .replayWrite)).restartEnds .failed
          mem := { s.mem with outstanding := ignoring Purpose.isRecovery rest } })

/-! ### FORMAT and DIGEST: their memory requests -/

/-- FORMAT's anchor writes: each OK is counted; the last makes the new format and profile current, sets the counters to their
FORMAT values and brings the engine ONLINE; an error leaves it UNFORMATTED with neither format nor profile.
The fields R162 leaves unsaid are log entry 14's, the order of the two event records log entry 11's, the zero item
and test of the result log entry 12's. -/
def Obligations.FormatWritesEndTheCommand : Prop :=
  ∀ (s : State) (e : MemEntry) (rest : List MemEntry) (w : FormatWork), Live s → Awaits s e rest →
    e.purpose = .formatWrite → s.service.format = some w → s.mgmt.running = some .format →
    (w.acked + 1 ≠ 4 → Leads (.formatAnchorWriteCompletion .ok) s fun t => t.out = Outputs.none ∧ Becomes t { s with
      mem := { s.mem with outstanding := rest }
      service := { s.service with format := some { w with acked := w.acked + 1 } } })
    ∧ (w.acked + 1 = 4 → Leads (.formatAnchorWriteCompletion .ok) s fun t =>
        Owes s t (fun _ h => h.kind = .quiesce) ∧ t.out = Outputs.none ∧ Becomes t { s with
          profile := s.engine.activation
          groups := { s.groups with nextGroup := 1 }
          journal := { queue := [], outstanding := [], failed := [], head := 0, liveTail := 0, nextCommit := 1
                       format := some { code := w.code, stamp := w.stamp } }
          ckpt := { number := 2, lastCopy := some .a, durableTail := 0, retiredThrough := 0, inFlight := none
                    pending := false, request := none, retained := none, rewrite := none }
          engine := { s.engine with state := .online, firstCause := none, causes := [], returnState := none
                                    quiescePending := false, activation := none, clear := none }
          mem := { s.mem with outstanding := rest }
          service := { s.service with format := none }
          mgmt := (s.mgmt.push (.state .online)).ended .format .done
          holds := t.holds })
    ∧ Leads (.formatAnchorWriteCompletion .error) s fun t =>
        Owes s t (fun _ h => h.kind = .quiesce) ∧ t.out = Outputs.none ∧ Becomes t { s with
          profile := none
          journal := { queue := [], outstanding := [], failed := [], head := 0, liveTail := 0, nextCommit := 1, format := none }
          ckpt := { number := 0, lastCopy := none, durableTail := 0, retiredThrough := 0, inFlight := none
                    pending := false, request := none, retained := none, rewrite := none }
          engine := { s.engine with state := .unformatted, firstCause := none, causes := [], returnState := none
                                    quiescePending := false, activation := none, clear := none }
          mem := { s.mem with outstanding := ignoring (· == .formatWrite) rest }
          service := { s.service with format := none }
          mgmt := s.mgmt.ended .format .failed
          holds := t.holds }

/-- A DIGEST read's bytes are fed into the CRC; the read that reaches the clamped range ends the command DONE with a DIGEST_DONE
event in place of COMMAND_DONE; an error ends it FAILED; the digest registers take the complemented CRC and the bytes
processed.
The zero item and test of the result FAILED are log entry 12's. -/
def Obligations.DigestReadsFeedTheCrc : Prop :=
  ∀ (s : State) (e : MemEntry) (rest : List MemEntry) (d : DigestRecord), Live s → Awaits s e rest →
    e.purpose = .digestRead → s.service.digest = some d → s.mgmt.running = some .digest →
    (∀ data, e.request.fits (.ok data) = true →
      (d.processed + data.length < d.stop - d.start →
        Leads (.digestReadCompletion (.ok data)) s fun t => t.out = Outputs.none ∧ Becomes t { s with
          mem := { s.mem with outstanding := rest }
          service := { s.service with
            digest := some { d with crc := crcFeed d.crc data, processed := d.processed + data.length } } })
      ∧ (d.stop - d.start ≤ d.processed + data.length →
        Leads (.digestReadCompletion (.ok data)) s fun t => t.out = Outputs.none ∧ Becomes t { s with
          mem := { s.mem with outstanding := ignoring Purpose.isDigestRead rest }
          service := { s.service with digest := none }
          mgmt := ({ s.mgmt with
            running := none
            result := { s.mgmt.result with result := .done }
            digestResult := ~~~ crcFeed d.crc data
            coveredBytes := d.processed + data.length }).push (.digestDone (~~~ crcFeed d.crc data)) }))
    ∧ Leads (.digestReadCompletion .error) s fun t => t.out = Outputs.none ∧ Becomes t { s with
        mem := { s.mem with outstanding := ignoring Purpose.isDigestRead rest }
        service := { s.service with digest := none }
        mgmt := ({ s.mgmt with digestResult := ~~~ d.crc, coveredBytes := d.processed }).ended .digest .failed }

/-! ### The command slot -/

/-- A command offered while another runs is dropped with overrun, whatever it is, but for RESTART and ABORT_DIGEST; an unknown code
taken ends BAD_ARGUMENT.
The zero item and test of that result are log entry 12's. -/
def Obligations.BusySlotDropsCommands : Prop :=
  ∀ (s : State) (c : Instr), Live s →
    (s.mgmt.running.isSome →
      c = .quiesce ∨ c = .resume ∨ c = .discardOpen ∨ c = .clearFault ∨ c = .format ∨ c = .digest ∨ c = .stageFromActive
        ∨ (∃ code, unknownCode code = true ∧ c = .unknownCommand code) →
      Leads c s fun t => t.out = Outputs.none
        ∧ Becomes t { s with mgmt := { s.mgmt with result := { s.mgmt.result with overrun := true } } })
    ∧ ∀ code, unknownCode code = true → s.mgmt.running = none → c = .unknownCommand code →
        Leads c s fun t => t.out = Outputs.none ∧ Becomes t { s with mgmt := s.mgmt.answered code .badArgument }

/-- QUIESCE ends in the event that takes it: ONLINE becomes QUIESCING and the quiesce-completion test is made; QUIESCING and
QUIESCED stay; in FAULTED with ONLINE-side causes only it is kept pending; elsewhere it is WRONG_STATE.
The zero item and test of the results are log entry 12's. -/
def Obligations.QuiesceByState : Prop :=
  ∀ s : State, Live s → s.mgmt.running = none → Leads .quiesce s fun t => t.out = Outputs.none
    ∧ (s.engine.state = .online → Becomes t { s with
        engine := { s.engine with state := .quiescing }
        ckpt := { s.ckpt with pending := s.ckpt.pending || quiesces s t
                              request := if quiesces s t then some .quiesce else s.ckpt.request }
        mgmt := s.mgmt.answered 1 .done })
    ∧ (s.engine.state = .quiescing ∨ s.engine.state = .quiesced → Becomes t { s with mgmt := s.mgmt.answered 1 .done })
    ∧ (s.engine.state = .faulted → s.engine.causes ≠ [] → (∀ c ∈ s.engine.causes, c.onlineSide = true) → Becomes t
        { s with engine := { s.engine with quiescePending := true }, mgmt := s.mgmt.answered 1 .done })
    ∧ (s.engine.state = .recovering ∨ s.engine.state = .unformatted
        ∨ s.engine.state = .faulted ∧ (s.engine.causes = [] ∨ ∃ c ∈ s.engine.causes, c.onlineSide = false) →
        Becomes t { s with mgmt := s.mgmt.answered 1 .wrongState })

/-- RESUME is accepted only in QUIESCED; an invalid staging profile ends it PROFILE_INVALID; a valid one is copied and a checkpoint
is asked for. STAGE_FROM_ACTIVE copies the active profile where there is one outside RECOVERING.
The zero item and test of results other than PROFILE_INVALID are log entry 12's. -/
def Obligations.ResumeAndStageFromActive : Prop :=
  ∀ s : State, Live s → s.mgmt.running = none →
    (Leads .resume s fun t => t.out = Outputs.none
      ∧ (s.engine.state ≠ .quiesced → Becomes t { s with mgmt := s.mgmt.answered 2 .wrongState })
      ∧ (s.engine.state = .quiesced → ∀ item test,
          profileFault s.engine.staging (journalBase s.abase) s.ringSize = some (item, test) →
          Becomes t { s with mgmt := s.mgmt.answered 2 .profileInvalid item test })
      ∧ (s.engine.state = .quiesced → profileFault s.engine.staging (journalBase s.abase) s.ringSize = none →
          Becomes t { s with
            engine := { s.engine with activation := some s.engine.staging }
            ckpt := { s.ckpt with request := some .resume, pending := true }
            mgmt := s.mgmt.runs .resume }))
    ∧ Leads .stageFromActive s fun t => t.out = Outputs.none
      ∧ (∀ p, s.profile = some p → s.engine.state ≠ .recovering →
          Becomes t { s with engine := { s.engine with staging := p }, mgmt := s.mgmt.answered 9 .done })
      ∧ (s.profile = none ∨ s.engine.state = .recovering → Becomes t { s with mgmt := s.mgmt.answered 9 .wrongState })

/-- Validation reports the first test that fails, regions in index order, then streams, then the open reserve; a profile with
nothing enabled and an open reserve of at most 128 is valid. The tests of an item in order: for a region its size, its
alignment, the regions before it, the journal area; for a stream the alignment of its commit word, the region that holds it,
its cancel word, the streams before it, its entry limit. A disabled item passes. -/
def Obligations.ValidationReportsTheFirstFailure : Prop :=
  ∀ (p : Profile) (base n : Nat),
    let meets (a b c d : Nat) : Prop := a < b + d ∧ b < a + c
    let area := 4096 + 64 * n
    (∀ i : Fin 6, (∀ j : Fin 6, j < i → regionFault p base n j.val = none) → ∀ t, regionFault p base n i.val = some t →
      profileFault p base n = some (BitVec.ofNat 8 i.val, t))
    ∧ ((∀ i : Fin 6, regionFault p base n i.val = none) → ∀ j : Fin 8,
        (∀ k : Fin 8, k < j → streamFault p base n k.val = none) → ∀ t, streamFault p base n j.val = some t →
        profileFault p base n = some (BitVec.ofNat 8 (8 + j.val), t))
    ∧ ((∀ i : Fin 6, regionFault p base n i.val = none) → (∀ j : Fin 8, streamFault p base n j.val = none) →
        profileFault p base n = if 128 < p.openReserve.toNat then some (16, 1) else none)
    ∧ ((∀ i, (getV p.regions i).enabled = false) → (∀ j, (getV p.streams j).enabled = false) →
        profileFault p base n = if 128 < p.openReserve.toNat then some (16, 1) else none)
    ∧ (∀ i : Fin 6,
      let g := getV p.regions i
      let size := 2 ^ g.sizeExp.toNat
      let badSize := g.sizeExp.toNat < 12 ∨ 32 < g.sizeExp.toNat
      let shares := ∃ j : Fin 6, j < i ∧ (getV p.regions j).enabled = true
        ∧ meets g.base.toNat (getV p.regions j).base.toNat size (2 ^ (getV p.regions j).sizeExp.toNat)
      let inJournal := meets g.base.toNat base size area
      (g.enabled = false → regionFault p base n i.val = none)
      ∧ (g.enabled = true →
        (badSize → regionFault p base n i.val = some 1)
        ∧ (¬ badSize → g.base.toNat % size ≠ 0 → regionFault p base n i.val = some 2)
        ∧ (¬ badSize → g.base.toNat % size = 0 → shares → regionFault p base n i.val = some 3)
        ∧ (¬ badSize → g.base.toNat % size = 0 → ¬ shares → inJournal → regionFault p base n i.val = some 4)
        ∧ (¬ badSize → g.base.toNat % size = 0 → ¬ shares → ¬ inJournal → regionFault p base n i.val = none)))
    ∧ ∀ j : Fin 8,
      let e := getV p.streams j
      let inside (a : Nat) (g : Region) : Prop := g.enabled = true ∧ g.base.toNat ≤ a ∧ a < g.base.toNat + 2 ^ g.sizeExp.toNat
      let outside := ¬ ∃ i, inside e.commitWord.toNat (getV p.regions i) ∧ (getV p.regions i).mask.getLsbD j.val = true
      let badCancel := e.cancelPresent = true ∧ (e.cancelWord.toNat % 8 ≠ 0
        ∨ (∃ i, inside e.cancelWord.toNat (getV p.regions i))
        ∨ base ≤ e.cancelWord.toNat ∧ e.cancelWord.toNat < base + area)
      let hasWord (f : StreamEntry) (w : Addr) : Prop := w = f.commitWord ∨ f.cancelPresent = true ∧ w = f.cancelWord
      let shares := ∃ k : Fin 8, k < j ∧ (getV p.streams k).enabled = true
        ∧ ∃ w, hasWord e w ∧ hasWord (getV p.streams k) w
      let badLimit := e.entryLimit.toNat < 1 ∨ 64 < e.entryLimit.toNat
      (e.enabled = false → streamFault p base n j.val = none)
      ∧ (e.enabled = true →
        (e.commitWord.toNat % 8 ≠ 0 → streamFault p base n j.val = some 1)
        ∧ (e.commitWord.toNat % 8 = 0 → outside → streamFault p base n j.val = some 2)
        ∧ (e.commitWord.toNat % 8 = 0 → ¬ outside → badCancel → streamFault p base n j.val = some 3)
        ∧ (e.commitWord.toNat % 8 = 0 → ¬ outside → ¬ badCancel → shares → streamFault p base n j.val = some 4)
        ∧ (e.commitWord.toNat % 8 = 0 → ¬ outside → ¬ badCancel → ¬ shares → badLimit →
          streamFault p base n j.val = some 5)
        ∧ (e.commitWord.toNat % 8 = 0 → ¬ outside → ¬ badCancel → ¬ shares → ¬ badLimit →
          streamFault p base n j.val = none))

/-- DISCARD_OPEN in ONLINE, QUIESCING and FAULTED discards the OPEN group of every stream that has one, in ascending stream
number: slots, versions and records freed, entries of the failed list FILLERs, the live tail recomputed, each discard counted
and announced, the held write of such a stream declined DISCARDED after its group's GROUP_DISCARDED event; then parked writes
are owed re-examinations, the distance trigger and the quiesce-completion test are evaluated, and the command ends DONE;
elsewhere it is WRONG_STATE.
COMMAND_DONE behind the other records is log entry 11's, the zero item and test of the result log entry 12's. -/
def Obligations.DiscardOpenDiscardsEveryOpenGroup : Prop :=
  ∀ s : State, Live s → s.mgmt.running = none →
    (s.engine.state = .recovering ∨ s.engine.state = .unformatted ∨ s.engine.state = .quiesced →
      Leads .discardOpen s fun t => t.out = Outputs.none ∧ Becomes t { s with mgmt := s.mgmt.answered 3 .wrongState })
    ∧ (s.engine.state = .online ∨ s.engine.state = .quiescing ∨ s.engine.state = .faulted →
      (s.openGroups = [] → Leads .discardOpen s fun t => t.out = Outputs.none
        ∧ Becomes t { s with mgmt := s.mgmt.answered 3 .done })
      ∧ (s.openGroups ≠ [] → Leads .discardOpen s fun t =>
          DiscardsGroups s t s.openGroups
          ∧ (∀ st, (getV t.ports st).places = (departures (s.placesDiscarded st)).2
              ∧ (getV t.ports st).nextIndex = (getV s.ports st).nextIndex)
          ∧ t.out = { Outputs.none with responses := allStreams.flatMap fun st => (departures (s.placesDiscarded st)).1 }
          ∧ t.mgmt = (s.openGroups.foldl (fun m x => m.discardedOpen x.1 x.2 (s.heldPlace x.1)) s.mgmt).answered 3 .done
          ∧ Owes { s with holds := s.holdsDiscarded } t (fun o w => w.kind = .space
              ∨ w.kind = .conflict ∧ ∃ l ∈ s.heldLines o w, l ∈ s.releasedByAll s.openGroups)
          ∧ WantsAfter s t s.ckpt.retiredThrough
          ∧ Becomes t { s with
              groups := t.groups, pool := t.pool, index := t.index, journal := t.journal, ckpt := t.ckpt, mgmt := t.mgmt
              holds := t.holds, ports := t.ports }))

/-- CLEAR_FAULT is accepted only in FAULTED with ONLINE-side causes alone, and at least one; it runs, and begins with the first step
whose cause is in the set: the journal step, the apply step, whose new attempt waits until nothing is outstanding, or the
anchor step.
CLEAR_FAULT ends DONE when its anchor step does: the effects of the checkpoint's acknowledgement, the retained anchor absent,
and the state entered: QUIESCED when it answered a quiesce or the return state says so, QUIESCING by the return state or a
pending quiesce, ONLINE otherwise; a RESUME's activation copy becomes active, and the end of recovery is announced.
The order of the event records is log entry 11's; the zero item and test, and steps that find nothing to do, are log entry 12's. -/
def Obligations.ClearFaultWorksThroughItsSteps : Prop :=
  (∀ s : State, Live s → s.mgmt.running = none →
    (s.engine.state ≠ .faulted ∨ s.engine.causes = [] ∨ (∃ c ∈ s.engine.causes, c.onlineSide = false) →
      Leads .clearFault s fun t => t.out = Outputs.none ∧ Becomes t { s with mgmt := s.mgmt.answered 4 .wrongState })
    ∧ (s.engine.state = .faulted → s.engine.causes ≠ [] → (∀ c ∈ s.engine.causes, c.onlineSide = true) →
      Leads .clearFault s fun t => t.out = Outputs.none
        ∧ JournalStepBegins { s with mgmt := s.mgmt.runs .clearFault } t))
  ∧ (∀ (s : State) (e : MemEntry) (rest : List MemEntry) (r : Retained) (w : Rewrite), Live s → Awaits s e rest →
    e.purpose = .anchorHalf true true → s.ckpt.retained = some r → s.ckpt.rewrite = some w → w.own = true →
    w.first = some .ok → s.mgmt.running = some .clearFault →
    Leads .checkpointAcknowledgement s fun t => t.out = Outputs.none ∧ Owes s t (fun _ h => h.kind = .space)
      ∧ ClearEnds { s with
          ckpt := { s.ckpt with durableTail := r.anchor.tail, number := r.anchor.number, lastCopy := some r.copy
                                retained := none, rewrite := none }
          mem := { s.mem with outstanding := rest }
          holds := t.holds } t r.answers)

/-- RESTART is taken in any slot state and never sets overrun: what runs ends ABORTED, every unanswered request leaves RETRACTED in
taken order, holds and the request path are emptied, the engine is RECOVERING with its fault record cleared, and what is
outstanding is left to the drain; with nothing outstanding the clearing follows at once. All of this with a DIGEST running too,
whose reads are ignored and whose registers hold what it has read.
The streams' ascending order in the list of responses is log entry 11's, the zero item and test of the results log entry 12's. -/
def Obligations.RestartRetractsAndDrains : Prop :=
  (∀ s : State, Live s → s.service.digest = none →
    Leads .restart s (RestartTaken { s with mgmt := match s.mgmt.running with
      | none => s.mgmt
      | some c => s.mgmt.ended c .aborted }))
  ∧ (∀ (s : State) (d : DigestRecord), Live s → s.service.digest = some d → s.mgmt.running = some .digest →
    Leads .restart s (RestartTaken { s with
      service := { s.service with digest := none }
      mem := { s.mem with outstanding := ignoring Purpose.isDigestRead s.mem.outstanding }
      mgmt := ({ s.mgmt with digestResult := ~~~ d.crc, coveredBytes := d.processed }).ended .digest .aborted }))

/-- FORMAT: WRONG_STATE outside UNFORMATTED, QUIESCED and FAULTED; BAD_ARGUMENT for a ring size code above 8; STAMP_REUSED for a
stamp of zero or the current one; PROFILE_INVALID; else the staging profile is copied and the anchor writes may begin. In
FAULTED the requests are retracted and the drain begins first; with nothing outstanding it is complete at once, and the clearing
and the checks follow in the same event.
The streams' ascending order in the list of responses is log entry 11's, the zero item and test of results other than
PROFILE_INVALID log entry 12's, what the clearing keeps of the engine record log entry 14's. -/
def Obligations.FormatChecksAndBegins : Prop :=
  ∀ s : State, Live s → s.mgmt.running = none →
    let code := getV s.mgmt.args 0
    let stamp := getV s.mgmt.args 1
    (s.engine.state = .recovering ∨ s.engine.state = .online ∨ s.engine.state = .quiescing →
      Leads .format s fun t => t.out = Outputs.none ∧ Becomes t { s with mgmt := s.mgmt.answered 6 .wrongState })
    ∧ (s.engine.state = .unformatted ∨ s.engine.state = .quiesced ∨ s.engine.state = .faulted → 8 < code.toNat →
      Leads .format s fun t => t.out = Outputs.none ∧ Becomes t { s with mgmt := s.mgmt.answered 6 .badArgument })
    ∧ (s.engine.state = .unformatted ∨ s.engine.state = .quiesced → code.toNat ≤ 8 →
      let emptied := { s.service with recovery := Recovery.empty }
      (stamp = 0 ∨ (∃ f, s.journal.format = some f ∧ f.stamp = stamp) →
        Leads .format s fun t => t.out = Outputs.none
          ∧ Becomes t { s with mgmt := s.mgmt.answered 6 .stampReused, service := emptied })
      ∧ (stamp ≠ 0 → (∀ f, s.journal.format = some f → f.stamp ≠ stamp) →
        (∀ item test, profileFault s.engine.staging (journalBase s.abase) (1024 * 2 ^ code.toNat) = some (item, test) →
          Leads .format s fun t => t.out = Outputs.none
            ∧ Becomes t { s with mgmt := s.mgmt.answered 6 .profileInvalid item test, service := emptied })
        ∧ (profileFault s.engine.staging (journalBase s.abase) (1024 * 2 ^ code.toNat) = none →
          Leads .format s fun t => t.out = Outputs.none ∧ Becomes t { s with
            mgmt := s.mgmt.runs .format
            engine := { s.engine with activation := some s.engine.staging }
            service := { emptied with
              format := some { code := code.setWidth 8, stamp := stamp, checked := true, granted := 0, acked := 0 } } })))
    ∧ (s.engine.state = .faulted → code.toNat ≤ 8 → s.mem.outstanding ≠ [] →
      Leads .format s fun t =>
        t.out = { responses := allStreams.flatMap fun st => (getV s.ports st).places.map fun q =>
                    ⟨q.request.stream, q.request.tag, .retracted⟩
                  issued := none, shifted := none }
        ∧ (∀ st, (getV t.ports st).places = []) ∧ t.mgmt = s.mgmt.runs .format ∧ t.engine = s.engine
        ∧ t.mem.draining = true ∧ t.mem.path = [] ∧ t.mem.outstanding = s.mem.outstanding
        ∧ t.service.format = some { code := code.setWidth 8, stamp := stamp, checked := false, granted := 0, acked := 0 }
        ∧ t.pool = s.pool ∧ t.index = s.index ∧ t.profile = s.profile)
    ∧ (s.engine.state = .faulted → code.toNat ≤ 8 → s.mem.outstanding = [] →
      Leads .format s fun t =>
        t.out = { responses := allStreams.flatMap fun st => (getV s.ports st).places.map fun q =>
                    ⟨q.request.stream, q.request.tag, .retracted⟩
                  issued := none, shifted := none }
        ∧ (∀ st, (getV t.ports st).places = []) ∧ Cleared s t 0 ∧ t.profile = s.profile
        ∧ FormatChecked s t
            { code := code.setWidth 8, stamp := stamp, checked := false, granted := 0, acked := 0 } (s.mgmt.runs .format))

/-- DIGEST: WRONG_STATE outside QUIESCED and UNFORMATTED; BAD_ARGUMENT for a start or length out of its range or not a multiple of
32; JOURNAL_AREA for a start in it; else it runs to the lower of start plus length and the limit of its state and start.
ABORT_DIGEST ends a running DIGEST ABORTED, its registers holding what it has read; it leaves another running command alone; in
an IDLE slot it ends WRONG_STATE.
The zero item and test of the results are log entry 12's. -/
def Obligations.DigestAndAbortDigest : Prop :=
  (∀ s : State, Live s → s.mgmt.running = none →
    let start := (getV s.mgmt.args 2).toNat * 2 ^ 32 + (getV s.mgmt.args 0).toNat
    let len := if getV s.mgmt.args 1 = 0 then 2 ^ 32 else (getV s.mgmt.args 1).toNat
    let bad := start % 32 ≠ 0 ∨ 2 ^ 36 ≤ start ∨ len % 32 ≠ 0 ∨ len < 32 ∨ 2 ^ 32 < len
    (s.engine.state ≠ .quiesced → s.engine.state ≠ .unformatted → Leads .digest s fun t => t.out = Outputs.none
      ∧ Becomes t { s with mgmt := s.mgmt.answered 7 .wrongState })
    ∧ (s.engine.state = .quiesced ∨ s.engine.state = .unformatted → bad → Leads .digest s fun t => t.out = Outputs.none
      ∧ Becomes t { s with mgmt := s.mgmt.answered 7 .badArgument })
    ∧ (s.engine.state = .quiesced → ¬ bad → s.inJournalArea start = true → Leads .digest s fun t => t.out = Outputs.none
      ∧ Becomes t { s with mgmt := s.mgmt.answered 7 .journalArea })
    ∧ (s.engine.state = .unformatted ∨ s.engine.state = .quiesced ∧ s.inJournalArea start = false ∧ s.profile.isSome →
      ¬ bad → Leads .digest s fun t => t.out = Outputs.none ∧ ∃ limit,
        Becomes t { s with
          mgmt := s.mgmt.runs .digest
          service := { s.service with
            digest := some { crc := 0xFFFFFFFF, start := start, next := start, stop := min (start + len) limit, processed := 0 } } }
        ∧ (s.engine.state = .unformatted → limit = 2 ^ 36)
        ∧ ∀ p, s.engine.state = .quiesced → s.profile = some p →
            (∀ g, p.regionAt start = some g → limit = g.base.toNat + 2 ^ g.sizeExp.toNat)
            ∧ (p.regionAt start = none → limit ≤ 2 ^ 36
              ∧ (start < journalBase s.abase → limit ≤ journalBase s.abase)
              ∧ (∀ i, (getV p.regions i).enabled = true → start < (getV p.regions i).base.toNat →
                  limit ≤ (getV p.regions i).base.toNat)
              ∧ (limit = 2 ^ 36 ∨ limit = journalBase s.abase ∧ start < limit
                ∨ ∃ i, (getV p.regions i).enabled = true ∧ limit = (getV p.regions i).base.toNat ∧ start < limit))))
  ∧ (∀ s : State, Live s →
    (∀ d, s.service.digest = some d → s.mgmt.running = some .digest → Leads .abortDigest s fun t => t.out = Outputs.none
      ∧ Becomes t { s with
          service := { s.service with digest := none }
          mem := { s.mem with outstanding := ignoring Purpose.isDigestRead s.mem.outstanding }
          mgmt := ({ s.mgmt with digestResult := ~~~ d.crc, coveredBytes := d.processed }).ended .digest .aborted })
    ∧ (s.service.digest = none → s.mgmt.running.isSome → Leads .abortDigest s fun t => t.out = Outputs.none ∧ Becomes t s)
    ∧ (s.service.digest = none → s.mgmt.running = none → Leads .abortDigest s fun t => t.out = Outputs.none
      ∧ Becomes t { s with mgmt := s.mgmt.answered 8 .wrongState }))

/-! ### The management port -/

/-- EVENT_POP: the oldest record leaves, its kind word is shifted out and its other words are latched; with the queue empty zero is
shifted out and zeros are latched.
Write frames act on the register they name: the INT enables, the lost count, the profile data words of the staging profile
(ignored with the active copy selected), the arguments, the profile select, the command, each code as its own row; read-only
and unused registers ignore them, and so does the event status register without lost-clear.
That a whole frame is one event here is log entry 9's, zeros for a record's absent fields log entry 23's. -/
def Obligations.ManagementFramesAct : Prop :=
  (∀ s : State, Live s →
    (∀ e rest, s.mgmt.events = e :: rest → Leads .eventPop s fun t =>
      t.out = { responses := [], issued := none, shifted := some e.word0 } ∧ Becomes t { s with
        mgmt := { s.mgmt with events := rest, latch1 := e.word1, latch2 := e.word2, latch3 := e.word3 } })
    ∧ (s.mgmt.events = [] → Leads .eventPop s fun t => t.out = { responses := [], issued := none, shifted := some 0 }
      ∧ Becomes t { s with mgmt := { s.mgmt with latch1 := 0, latch2 := 0, latch3 := 0 } }))
  ∧ (∀ (s : State) (v : Word), Live s →
    Leads (.intEnableWrite v) s (fun t => t.out = Outputs.none
      ∧ Becomes t { s with mgmt := { s.mgmt with intEnable := v.setWidth 8 } })
    ∧ Leads .lostClear s (fun t => t.out = Outputs.none ∧ Becomes t { s with mgmt := { s.mgmt with lost := 0 } })
    ∧ (∀ w, Leads (.profileDataWrite w v) s fun t => t.out = Outputs.none
      ∧ (s.mgmt.selectActive = false → Becomes t { s with
          engine := { s.engine with staging := s.engine.staging.store s.mgmt.selectItem w v } })
      ∧ (s.mgmt.selectActive = true → Becomes t s))
    ∧ (∀ i : Fin 4, Leads (.registerWrite (.write (BitVec.ofNat 6 (3 + i.val))) v) s fun t => t.out = Outputs.none
      ∧ Becomes t { s with mgmt := { s.mgmt with args := setV s.mgmt.args i v } })
    ∧ Leads (.registerWrite (.write 0x16) v) s (fun t => t.out = Outputs.none ∧ Becomes t { s with
        mgmt := { s.mgmt with selectActive := v.getLsbD 0, selectItem := (v >>> 4).setWidth 4 } })
    ∧ (∀ n : BitVec 6, n.toNat ∈ [0x00, 0x01, 0x07, 0x09, 0x0A, 0x0B, 0x0C, 0x0E, 0x0F, 0x10, 0x11, 0x12, 0x13, 0x14, 0x15,
          0x1B, 0x1C] ∨ 0x1D ≤ n.toNat →
        Leads (.registerWrite (.write n) v) s fun t => t.out = Outputs.none ∧ Becomes t s)
    ∧ exec (.registerWrite (.write 0x0D) v) s = exec (.intEnableWrite v) s
    ∧ (∀ w : Fin 4, exec (.registerWrite (.write (BitVec.ofNat 6 (0x17 + w.val))) v) s = exec (.profileDataWrite w v) s)
    ∧ (v.getLsbD 31 = true → exec (.registerWrite (.write 0x08) v) s = exec .lostClear s)
    ∧ (v.getLsbD 31 = false → Leads (.registerWrite (.write 0x08) v) s fun t => t.out = Outputs.none ∧ Becomes t s)
    ∧ (∀ code c, (code, c) ∈ [(1#8, Instr.quiesce), (2#8, .resume), (3#8, .discardOpen), (4#8, .clearFault), (5#8, .restart),
          (6#8, .format), (7#8, .digest), (8#8, .abortDigest), (9#8, .stageFromActive)] →
        v.setWidth 8 = code → exec (.registerWrite (.write 0x02) v) s = exec c s)
    ∧ (unknownCode (v.setWidth 8) = true →
        exec (.registerWrite (.write 0x02) v) s = exec (.unknownCommand (v.setWidth 8)) s))

/-- A profile data word reads back what was written to it, field by field, and the other words of the item stay. -/
def Obligations.ProfileDataWordsReadBack : Prop :=
  ∀ (p : Profile) (item : BitVec 4) (w u : Fin 4) (v : Word),
    (p.store item w v).word item w = v &&&
        (if item = 15 then 0
        else if item = 0 then (match w with
          | 0 => 0xFFFF#32
          | 1 => 0xFF#32
          | _ => 0)
        else if item.toNat ≤ 6 then (match w with
          | 0 => 0xFFFFFFFF#32
          | 1 => 0xF#32
          | 2 => 0xFF013F#32
          | _ => 0)
        else (match w with
          | 0 => 0xFFFFFFFF#32
          | 1 => 0xF000F#32
          | 2 => 0xFFFFFFFF#32
          | _ => 0x7F03#32))
    ∧ (u ≠ w → (p.store item w v).word item u = p.word item u)
    ∧ ∀ other : BitVec 4, other ≠ item → (p.store item w v).word other u = p.word other u

/-- INT is asserted exactly while a queued record is of an enabled kind: a write to the enables decides it in its own event, a
dropped record does not assert it, and a record of an enabled kind keeps it asserted wherever it stands. -/
def Obligations.IntFollowsTheEnabledKinds : Prop :=
  (∀ s : State, s.intPin = true ↔ ∃ e ∈ s.mgmt.events, s.mgmt.intEnable.getLsbD (e.kind - 1) = true)
    ∧ (∀ e : Event, 1 ≤ e.kind ∧ e.kind ≤ 8)
    ∧ (∀ (s : State) (v : Word), Live s → Leads (.intEnableWrite v) s fun t =>
        t.mgmt.events = s.mgmt.events ∧ (t.intPin = true ↔ ∃ e ∈ s.mgmt.events, v.getLsbD (e.kind - 1) = true))
    ∧ (∀ (s : State) (e : Event), 32 ≤ s.mgmt.events.length →
        State.intPin { s with mgmt := s.mgmt.push e } = s.intPin)
    ∧ (∀ (s : State) (e : Event), s.mgmt.events.length < 32 →
        State.intPin { s with mgmt := s.mgmt.push e }
          = (s.intPin || s.mgmt.intEnable.getLsbD (e.kind - 1)))
    ∧ ∀ (s : State) (first e : Event) (rest : List Event), Live s → s.mgmt.events = first :: rest → e ∈ rest →
        s.mgmt.intEnable.getLsbD (e.kind - 1) = true → s.intPin = true ∧ Leads .eventPop s fun t => t.intPin = true

/-- An event record joins the queue, or is dropped and counted when 32 are queued, the count saturating at 255; the write of
lost-clear sets it to 0; the event status register shows both numbers. A drop and a pop, and a drop and a clear, in either
order. The queue holds at most 32 records, and the count is that of the events dropped since the last clear. -/
def Obligations.FullQueueCountsLostEvents : Prop :=
  (∀ (m : ManagementPort) (e : Event),
      (m.events.length < 32 → m.push e = { m with events := m.events ++ [e] })
      ∧ (32 ≤ m.events.length → m.push e = { m with lost := BitVec.ofNat 8 (min (m.lost.toNat + 1) 255) }))
    ∧ (∀ s : State, Live s → Leads .lostClear s fun t => t.mgmt.lost = 0 ∧ t.mgmt.events = s.mgmt.events)
    ∧ (∀ s : State, s.readRegister 0x08 = BitVec.ofNat 32 (s.mgmt.events.length + 256 * s.mgmt.lost.toNat))
    ∧ (∀ (m : ManagementPort) (first e : Event) (rest : List Event), m.events = first :: rest → m.events.length = 32 →
        ManagementPort.push { m with events := rest } e = { m with events := rest ++ [e] }
        ∧ { m.push e with events := (m.push e).events.tail }
            = { m with events := rest, lost := BitVec.ofNat 8 (min (m.lost.toNat + 1) 255) }
        ∧ (ManagementPort.push { m with lost := 0 } e).lost = 1)
    ∧ ∀ (m : ManagementPort) (es : List Event), m.events.length ≤ 32 → m.lost = 0 →
        (es.foldl ManagementPort.push m).events.length = min 32 (m.events.length + es.length)
        ∧ (es.foldl ManagementPort.push m).lost.toNat = min 255 (m.events.length + es.length - 32)

/-- The registers show the state as it stands: identity; the engine register's state, first cause, cause set, quiesce-pending and
DIGEST bits; the result register; the oldest record's word 0 and the latches; arguments, INT enables, profile select and the
four profile data words of the copy selected; slot status, the ring, the counters, the digest. Bits not named read zero, in the
command register too, whose bits 7 to 0 are a free value (log entry 9).
The codes, and the four words of each kind of event record: kind, stream, reason and address in EVENT0, group number, address and
value in EVENT1 to EVENT3; zeros in the fields a record does not have are the model's choice (log entry 23).
That the active copy shows the profile RESTART has kept, in RECOVERING before an anchor is loaded too, is log entry 26's. -/
def Obligations.StatusRegistersShowTheState : Prop :=
  ([EngineState.recovering, .unformatted, .online, .quiescing, .quiesced, .faulted].map EngineState.code = [0, 1, 2, 3, 4, 5]
    ∧ [FaultCause.journalWrite, .applyWrite, .checkpointWrite, .recoveryRead, .recoveryMismatch, .replayWrite].map FaultCause.code
        = [1, 2, 3, 4, 5, 6]
    ∧ [Command.quiesce, .resume, .discardOpen, .clearFault, .restart, .format, .digest, .abortDigest, .stageFromActive].map
        Command.code = [1, 2, 3, 4, 5, 6, 7, 8, 9]
    ∧ [Result.done, .running, .wrongState, .profileInvalid, .stampReused, .badArgument, .journalArea, .failed, .aborted].map
        Result.code = [0, 1, 2, 3, 4, 5, 6, 7, 8]
    ∧ [DeclineReason.journalArea, .blockCrossing, .writeDenied, .streamOff, .engineFault, .holdExpired, .conflictCycle,
        .groupLimit, .overflow, .discarded, .memoryError].map DeclineReason.code = [1, 2, 3, 4, 5, 6, 7, 8, 9, 10, 11]
    ∧ [DiscardReason.cancel, .groupLimit, .overflow, .management].map DiscardReason.code = [1, 2, 3, 4])
  ∧ (let shows (e : Event) (kind w0 w1 w2 w3 : Nat) : Prop := e.kind = kind ∧ e.word0.toNat = kind + w0
        ∧ e.word1.toNat = w1 ∧ e.word2.toNat = w2 ∧ e.word3.toNat = w3
    (∀ (st : Stream) (a : Addr) r (tag : Fin 4), shows (.decline st a r tag) 1
        (2 ^ 4 * st.val + 2 ^ 7 + 2 ^ 8 * r.code + 2 ^ 24 * (a.toNat / 2 ^ 32) + 2 ^ 28) 0 (a.toNat % 2 ^ 32) tag.val)
    ∧ (∀ (st : Stream) (g : Word) r, shows (.groupDiscarded st g r) 2 (2 ^ 4 * st.val + 2 ^ 7 + 2 ^ 8 * r.code) g.toNat 0 0)
    ∧ (∀ c, shows (.fault c) 3 (2 ^ 8 * c.code) 0 0 0)
    ∧ (∀ e, shows (.faultCleared e) 4 0 0 0 e.code)
    ∧ (∀ n : Word, shows (.recoveryDone n) 5 0 0 0 n.toNat)
    ∧ (∀ e, shows (.state e) 6 0 0 0 e.code)
    ∧ (∀ crc : Word, shows (.digestDone crc) 7 0 0 0 crc.toNat)
    ∧ ∀ (c : Byte) r, shows (.commandDone c r) 8 0 0 0 (c.toNat + 2 ^ 8 * r.code))
  ∧ ∀ s : State, s.readRegister 0x00 = 0x38160101
    ∧ s.readRegister 0x0E
        = BitVec.ofNat 32 (s.pool.free.length + 4096 * s.openCount
            + 65536 * (s.groups.pipeline.length + if s.groups.replaying.isSome then 1 else 0))
    ∧ s.readRegister 0x0F = s.journal.head ∧ s.readRegister 0x10 = s.journal.liveTail
    ∧ s.readRegister 0x11 = s.ckpt.durableTail ∧ s.readRegister 0x12 = s.mgmt.commits
    ∧ s.readRegister 0x13 = s.mgmt.discards ∧ s.readRegister 0x14 = s.mgmt.declines
    ∧ s.readRegister 0x15 = s.mgmt.records ∧ s.readRegister 0x1B = s.mgmt.digestResult
    ∧ s.readRegister 0x1C = BitVec.ofNat 32 (s.mgmt.coveredBytes / 32)
    ∧ ((s.readRegister 0x01).toNat % 8 = s.engine.state.code)
    ∧ (s.readRegister 0x01).toNat / 16 % 8 = s.engine.firstCause.elim 0 FaultCause.code
    ∧ (∀ c : FaultCause, (s.readRegister 0x01).getLsbD (7 + c.code) = true ↔ c ∈ s.engine.causes)
    ∧ (s.readRegister 0x01).getLsbD 16 = s.engine.quiescePending
    ∧ (s.readRegister 0x01).getLsbD 17 = s.service.digest.isSome
    ∧ (∀ i, i = 3 ∨ i = 7 ∨ i = 14 ∨ i = 15 ∨ 18 ≤ i → (s.readRegister 0x01).getLsbD i = false)
    ∧ (s.readRegister 0x02).toNat < 256
    ∧ (∀ i : Fin 4, s.readRegister (BitVec.ofNat 6 (3 + i.val)) = getV s.mgmt.args i)
    ∧ s.readRegister 0x07 = BitVec.ofNat 32 (s.mgmt.result.code.toNat + 2 ^ 8 * s.mgmt.result.result.code
        + (if s.mgmt.result.overrun then 2 ^ 15 else 0) + 2 ^ 16 * s.mgmt.result.item.toNat
        + 2 ^ 24 * s.mgmt.result.test.toNat)
    ∧ s.mgmt.result.result.code < 2 ^ 4
    ∧ s.readRegister 0x09 = s.mgmt.events.head?.elim 0 Event.word0
    ∧ s.readRegister 0x0A = s.mgmt.latch1 ∧ s.readRegister 0x0B = s.mgmt.latch2 ∧ s.readRegister 0x0C = s.mgmt.latch3
    ∧ (s.readRegister 0x0D).toNat = s.mgmt.intEnable.toNat
    ∧ (s.readRegister 0x16).toNat = (if s.mgmt.selectActive then 1 else 0) + 16 * s.mgmt.selectItem.toNat
    ∧ (∀ w : Fin 4, s.readRegister (BitVec.ofNat 6 (0x17 + w.val))
        = if s.mgmt.selectActive then s.profile.elim 0 (·.word s.mgmt.selectItem w)
          else s.engine.staging.word s.mgmt.selectItem w)
    ∧ (∀ n : BitVec 6, 0x1D ≤ n.toNat → s.readRegister n = 0)

/-! ### Formats -/

/-- The CRC of R103: its check value, its parameters bit by bit, and its growth byte by byte: a byte is xored into the low end of
the register and eight bit steps follow. -/
def Obligations.CrcParameters : Prop :=
  crc32 [0x31, 0x32, 0x33, 0x34, 0x35, 0x36, 0x37, 0x38, 0x39] = 0xCBF43926#32
    ∧ crcStart = 0xFFFFFFFF#32
    ∧ (∀ (c : Word) (a b : List Byte), crcFeed c (a ++ b) = crcFeed (crcFeed c a) b)
    ∧ (∀ c : Word, crcFeed c [] = c)
    ∧ (∀ (c : Word) (b : Byte), crcFeed c [b]
        = crcBit (crcBit (crcBit (crcBit (crcBit (crcBit (crcBit (crcBit (c ^^^ b.setWidth 32)))))))))
    ∧ (∀ bytes, crc32 bytes = ~~~ crcFeed crcStart bytes)
    ∧ ∀ c : Word, crcBit c = (if c.getLsbD 0 then (c >>> 1) ^^^ (0x04C11DB7#32).reverse else c >>> 1)

/-- A record the Journal Writer forms reads back as itself under its own stamp and sequence number, and under no other. -/
def Obligations.RecordsReadBack : Prop :=
  ∀ (stamp seq : Word) (g : Machine.Group) (line : Line) (cells : List (Option Byte)) (n : Word), cells.length = 32 →
    (entryRecord stamp seq g line cells).length = 64
    ∧ readRecord stamp seq (entryRecord stamp seq g line cells)
        = some (.entry (BitVec.ofNat 8 g.stream.val) g.number line cells)
    ∧ readRecord stamp seq (commitRecord stamp seq g n)
        = some (.commit (BitVec.ofNat 8 g.stream.val) g.number n g.recordCount (BitVec.ofNat 32 g.entries.length))
    ∧ readRecord stamp seq (fillerRecord stamp seq) = some .filler
    ∧ ∀ stamp' seq', stamp' ≠ stamp ∨ seq' ≠ seq →
        readRecord stamp' seq' (entryRecord stamp seq g line cells) = none
        ∧ readRecord stamp' seq' (commitRecord stamp seq g n) = none
        ∧ readRecord stamp' seq' (fillerRecord stamp seq) = none

/-- An anchor reads back as itself from its two halves, whatever its profile, when its stamp is not zero. -/
def Obligations.AnchorsReadBack : Prop :=
  ∀ a : Anchor, a.stamp ≠ 0 →
    (anchorBytes a).length = 256
    ∧ readAnchor (anchorHalf a false ++ anchorHalf a true) = some a

/-! ### Invariants -/

/-- The bounds the spec gives hold in every next state: 32 events, 4 places a stream, 16 outstanding requests, 32 queued records;
and no ready response stands at the front of its stream's queue. -/
def Obligations.StepKeepsTheBounds : Prop :=
  ∀ s t : State, EventLaw s ∧ PlaceLaw s ∧ OutstandingLaw s ∧ QueueLaw s ∧ NoReadyFront s → step s = .next t →
    EventLaw t ∧ PlaceLaw t ∧ OutstandingLaw t ∧ QueueLaw t ∧ NoReadyFront t

/-- The ownership law of the Line Index: entries in line order, none empty, the owner present exactly while an unsealed or open
version is.
Outside FAULTED the engine holds no fault cause, return state or pending quiesce. -/
def Obligations.StepKeepsIndexAndFaultRecordLaws : Prop :=
  (∀ s t : State, IndexLaw s → step s = .next t → IndexLaw t)
  ∧ (∀ s t : State, FaultRecordLaw s → step s = .next t → FaultRecordLaw t)

/-- The free-list law: every slot is in the free list or in exactly one group's entry list, never in both and never twice. -/
def Obligations.StepKeepsTheFreeListLaw : Prop :=
  ∀ s t : State, FreeListLaw s ∧ RefLaw s ∧ ReplayLaw s → step s = .next t → FreeListLaw t ∧ RefLaw t ∧ ReplayLaw t

/-- The state after reset keeps every law. -/
def Obligations.ResetKeepsTheLaws : Prop :=
  EventLaw State.reset ∧ PlaceLaw State.reset ∧ OutstandingLaw State.reset ∧ QueueLaw State.reset
    ∧ NoReadyFront State.reset ∧ IndexLaw State.reset ∧ FreeListLaw State.reset ∧ RefLaw State.reset
    ∧ ReplayLaw State.reset ∧ FaultRecordLaw State.reset

/-- Frames clocked bit by bit. The 40 bits of a frame spell its command byte and its data, most significant bit first, bit 6 of
the command byte ignored. Selecting begins a frame; each bit clocked in joins it; the eighth completes the command byte, and a
read frame samples its register, with the other words of the oldest record when it reads EVENT0; the sampled value is shifted
out over the next 32 bits; the fortieth completes the frame: a write frame acts as the whole write frame of its register and
data, a read of EVENT0 removes the record sampled and latches its words, zeros when the queue was empty at the sample, another
read does nothing; bits after it are ignored, with zeros shifted out; deselecting ends the frame and changes nothing else, so a
frame that ends early does nothing. Without a frame bits are ignored, and none is in progress after a reset.
That the row REGISTER_WRITE carries the events of a frame, and that no frame is in progress after a reset, is log entry 9's. -/
def Obligations.FramesAreClockedBitByBit : Prop :=
  (∀ (read ignored : Bool) (n : BitVec 6) (v : Word), (frameBits read ignored n v).length = 40
    ∧ frameHead (frameCommand (frameBits read ignored n v)) = { read := read, number := n }
    ∧ frameData (frameBits read ignored n v) = v)
  ∧ (∀ (s : State) (abase : BitVec 4), Leads (.resetRelease abase) s fun t => t.mgmt.frame = none)
  ∧ (∀ s : State, Live s →
    let inFrame (f : Option Frame) : State := { s with mgmt := { s.mgmt with frame := f } }
    (s.mgmt.frame = none → ∀ v, Leads (.registerWrite .select v) s fun t => t.out = Outputs.none
      ∧ Becomes t (inFrame (some { bits := [], sampled := none, captured := none })))
    ∧ (∀ v, Leads (.registerWrite .deselect v) s fun t => t.out = Outputs.none ∧ Becomes t (inFrame none))
    ∧ (∀ v, s.mgmt.frame = none → Leads (.registerWrite .clock v) s fun t => t.out = Outputs.none ∧ Becomes t s)
    ∧ ∀ f mosi, s.mgmt.frame = some f →
      let bits := f.bits ++ [mosi.getLsbD 0]
      let head := frameHead (frameCommand bits)
      (40 ≤ f.bits.length → Leads (.registerWrite .clock mosi) s fun t =>
        t.out = { Outputs.none with miso := some false } ∧ Becomes t s)
      ∧ (f.bits.length < 40 → f.bits.length ≠ 7 → f.bits.length ≠ 39 → Leads (.registerWrite .clock mosi) s fun t =>
        t.out = { Outputs.none with miso := f.sampled.map fun v => v.getMsbD (f.bits.length - 8) }
        ∧ Becomes t (inFrame (some { f with bits := bits })))
      ∧ (f.bits.length = 7 → head.read = false → f.sampled = none → Leads (.registerWrite .clock mosi) s fun t =>
        t.out = Outputs.none ∧ Becomes t (inFrame (some { f with bits := bits })))
      ∧ (f.bits.length = 7 → head.read = true → f.sampled = none → Leads (.registerWrite .clock mosi) s fun t =>
        t.out = Outputs.none
        ∧ (head.number ≠ 0x09 → Becomes t
            (inFrame (some { bits := bits, sampled := some (s.readRegister head.number), captured := none })))
        ∧ (∀ e rest, head.number = 0x09 → s.mgmt.events = e :: rest → Becomes t (inFrame (some
            { bits := bits, sampled := some e.word0
              captured := some { word1 := e.word1, word2 := e.word2, word3 := e.word3 } })))
        ∧ (head.number = 0x09 → s.mgmt.events = [] → Becomes t
            (inFrame (some { bits := bits, sampled := some 0, captured := none }))))
      ∧ (f.bits.length = 39 → head.read = false → f.sampled = none →
        exec (.registerWrite .clock mosi) s
          = exec (.registerWrite (.write head.number) (frameData bits)) (inFrame (some { f with bits := bits })))
      ∧ (∀ v, f.bits.length = 39 → head.read = true → f.sampled = some v → Leads (.registerWrite .clock mosi) s fun t =>
        t.out = { Outputs.none with miso := some (v.getLsbD 0) }
        ∧ (head.number ≠ 0x09 → Becomes t (inFrame (some { f with bits := bits })))
        ∧ (∀ c, head.number = 0x09 → f.captured = some c → Becomes t { s with mgmt := { s.mgmt with
            frame := some { f with bits := bits }
            events := s.mgmt.events.tail, latch1 := c.word1, latch2 := c.word2, latch3 := c.word3 } })
        ∧ (head.number = 0x09 → f.captured = none → Becomes t { s with mgmt := { s.mgmt with
            frame := some { f with bits := bits }, latch1 := 0, latch2 := 0, latch3 := 0 } })))
end

