-- ==== Sys2Proof/Laws/Word.lean ====
section
/-! SUPPORT. Reading a table after writing it. -/

namespace Sys2Proof

variable {α β : Type} {n : Nat}

@[simp] theorem getV_setV_same (v : Vector α n) (i : Fin n) (x : α) : getV (setV v i x) i = x := by
  simp [getV, setV]

theorem getV_setV_other (v : Vector α n) (i j : Fin n) (x : α) (h : j ≠ i) : getV (setV v i x) j = getV v j := by
  simp [getV, setV, Vector.getElem_set_ne _ _ (fun e => h (Fin.ext e.symm))]

theorem getV_setV (v : Vector α n) (i j : Fin n) (x : α) :
    getV (setV v i x) j = if j = i then x else getV v j := by
  by_cases h : j = i
  · subst h; simp
  · simp [h, getV_setV_other]

@[simp] theorem getV_replicate (x : α) (i : Fin n) : getV (Vector.replicate n x) i = x := by simp [getV]

@[simp] theorem getV_mapV (f : α → β) (v : Vector α n) (i : Fin n) : getV (mapV f v) i = f (getV v i) := by
  simp [getV, mapV]

@[simp] theorem getV_mapStreams (f : Stream → α → β) (v : Vector α 8) (i : Stream) :
    getV (mapStreams f v) i = f i (getV v i) := by
  match i with
  | 0 | 1 | 2 | 3 | 4 | 5 | 6 | 7 => rfl

/-- Every stream is listed. -/
@[simp] theorem mem_allStreams (i : Stream) : i ∈ allStreams := by
  match i with
  | 0 | 1 | 2 | 3 | 4 | 5 | 6 | 7 => decide

/-- Two tables of eight with the same entries are the same. -/
theorem tables_ext (v w : Vector α n) (h : ∀ i : Fin n, getV v i = getV w i) : v = w :=
  Vector.ext fun i hi => h ⟨i, hi⟩

/-- The entries of a table of eight, in order. -/
theorem toList_eight (v : Vector α 8) : v.toList = allStreams.map (getV v) := by
  apply List.ext_getElem
  · simp [allStreams]
  · intro i h1 h2
    have hi : i < 8 := by simpa using h1
    interval_cases i <;> rfl

end Sys2Proof
end

