-- ==== Sys2Proof/Laws/State.lean ====
section
/-! SUPPORT. For each operation, the fields of State it leaves unchanged. -/

namespace Sys2Proof.Machine

@[simp] theorem State.clearOut_keeps (s : State) :
    s.clearOut.run = s.run ∧ s.clearOut.abase = s.abase ∧ s.clearOut.now = s.now ∧ s.clearOut.ports = s.ports
    ∧ s.clearOut.profile = s.profile ∧ s.clearOut.groups = s.groups ∧ s.clearOut.pool = s.pool ∧
    s.clearOut.index = s.index ∧ s.clearOut.holds = s.holds ∧ s.clearOut.journal = s.journal ∧
    s.clearOut.apply = s.apply ∧ s.clearOut.ckpt = s.ckpt ∧ s.clearOut.mem = s.mem ∧ s.clearOut.service =
    s.service ∧ s.clearOut.engine = s.engine ∧ s.clearOut.mgmt = s.mgmt ∧ s.clearOut.freeCount = s.freeCount ∧
    s.clearOut.pending = s.pending :=
  ⟨rfl, rfl, rfl, rfl, rfl, rfl, rfl, rfl, rfl, rfl, rfl, rfl, rfl, rfl, rfl, rfl, rfl, rfl⟩

@[simp] theorem State.pushEvent_keeps (s : State) (e : Event) :
    (s.pushEvent e).run = s.run ∧ (s.pushEvent e).abase = s.abase ∧ (s.pushEvent e).now = s.now ∧ (s.pushEvent
    e).ports = s.ports ∧ (s.pushEvent e).profile = s.profile ∧ (s.pushEvent e).groups = s.groups ∧
    (s.pushEvent e).pool = s.pool ∧ (s.pushEvent e).index = s.index ∧ (s.pushEvent e).holds = s.holds ∧
    (s.pushEvent e).journal = s.journal ∧ (s.pushEvent e).apply = s.apply ∧ (s.pushEvent e).ckpt = s.ckpt ∧
    (s.pushEvent e).mem = s.mem ∧ (s.pushEvent e).service = s.service ∧ (s.pushEvent e).engine = s.engine ∧
    (s.pushEvent e).out = s.out ∧ (s.pushEvent e).freeCount = s.freeCount ∧ (s.pushEvent e).pending =
    s.pending :=
  ⟨rfl, rfl, rfl, rfl, rfl, rfl, rfl, rfl, rfl, rfl, rfl, rfl, rfl, rfl, rfl, rfl, rfl, rfl⟩

@[simp] theorem State.updatePlace_keeps (s : State) (st : Stream) (i : Fin 4) (f : Place → Place) :
    (s.updatePlace st i f).run = s.run ∧ (s.updatePlace st i f).abase = s.abase ∧ (s.updatePlace st i f).now =
    s.now ∧ (s.updatePlace st i f).profile = s.profile ∧ (s.updatePlace st i f).groups = s.groups ∧
    (s.updatePlace st i f).pool = s.pool ∧ (s.updatePlace st i f).index = s.index ∧ (s.updatePlace st i
    f).holds = s.holds ∧ (s.updatePlace st i f).journal = s.journal ∧ (s.updatePlace st i f).apply = s.apply ∧
    (s.updatePlace st i f).ckpt = s.ckpt ∧ (s.updatePlace st i f).mem = s.mem ∧ (s.updatePlace st i f).service
    = s.service ∧ (s.updatePlace st i f).engine = s.engine ∧ (s.updatePlace st i f).mgmt = s.mgmt ∧
    (s.updatePlace st i f).out = s.out ∧ (s.updatePlace st i f).freeCount = s.freeCount ∧ (s.updatePlace st i
    f).pending = s.pending :=
  ⟨rfl, rfl, rfl, rfl, rfl, rfl, rfl, rfl, rfl, rfl, rfl, rfl, rfl, rfl, rfl, rfl, rfl, rfl⟩

@[simp] theorem State.makeReady_keeps (s : State) (st : Stream) (i : Fin 4) (x : Status) :
    (s.makeReady st i x).run = s.run ∧ (s.makeReady st i x).abase = s.abase ∧ (s.makeReady st i x).now = s.now
    ∧ (s.makeReady st i x).profile = s.profile ∧ (s.makeReady st i x).groups = s.groups ∧ (s.makeReady st i
    x).pool = s.pool ∧ (s.makeReady st i x).index = s.index ∧ (s.makeReady st i x).holds = s.holds ∧
    (s.makeReady st i x).journal = s.journal ∧ (s.makeReady st i x).apply = s.apply ∧ (s.makeReady st i
    x).ckpt = s.ckpt ∧ (s.makeReady st i x).mem = s.mem ∧ (s.makeReady st i x).service = s.service ∧
    (s.makeReady st i x).engine = s.engine ∧ (s.makeReady st i x).mgmt = s.mgmt ∧ (s.makeReady st i x).out =
    s.out ∧ (s.makeReady st i x).freeCount = s.freeCount ∧ (s.makeReady st i x).pending = s.pending :=
  ⟨rfl, rfl, rfl, rfl, rfl, rfl, rfl, rfl, rfl, rfl, rfl, rfl, rfl, rfl, rfl, rfl, rfl, rfl⟩

@[simp] theorem State.decline_keeps (s : State) (st : Stream) (p : Place) (r : DeclineReason) :
    (s.decline st p r).run = s.run ∧ (s.decline st p r).abase = s.abase ∧ (s.decline st p r).now = s.now ∧
    (s.decline st p r).profile = s.profile ∧ (s.decline st p r).groups = s.groups ∧ (s.decline st p r).pool =
    s.pool ∧ (s.decline st p r).index = s.index ∧ (s.decline st p r).holds = s.holds ∧ (s.decline st p
    r).journal = s.journal ∧ (s.decline st p r).apply = s.apply ∧ (s.decline st p r).ckpt = s.ckpt ∧
    (s.decline st p r).mem = s.mem ∧ (s.decline st p r).service = s.service ∧ (s.decline st p r).engine =
    s.engine ∧ (s.decline st p r).out = s.out ∧ (s.decline st p r).freeCount = s.freeCount ∧ (s.decline st p
    r).pending = s.pending :=
  ⟨rfl, rfl, rfl, rfl, rfl, rfl, rfl, rfl, rfl, rfl, rfl, rfl, rfl, rfl, rfl, rfl, rfl⟩

@[simp] theorem State.departAll_keeps (s : State) :
    s.departAll.run = s.run ∧ s.departAll.abase = s.abase ∧ s.departAll.now = s.now ∧ s.departAll.profile =
    s.profile ∧ s.departAll.groups = s.groups ∧ s.departAll.pool = s.pool ∧ s.departAll.index = s.index ∧
    s.departAll.holds = s.holds ∧ s.departAll.journal = s.journal ∧ s.departAll.apply = s.apply ∧
    s.departAll.ckpt = s.ckpt ∧ s.departAll.mem = s.mem ∧ s.departAll.service = s.service ∧ s.departAll.engine
    = s.engine ∧ s.departAll.mgmt = s.mgmt ∧ s.departAll.freeCount = s.freeCount ∧ s.departAll.pending =
    s.pending :=
  ⟨rfl, rfl, rfl, rfl, rfl, rfl, rfl, rfl, rfl, rfl, rfl, rfl, rfl, rfl, rfl, rfl, rfl⟩

@[simp] theorem State.retractAll_keeps (s : State) :
    s.retractAll.run = s.run ∧ s.retractAll.abase = s.abase ∧ s.retractAll.now = s.now ∧ s.retractAll.profile
    = s.profile ∧ s.retractAll.pool = s.pool ∧ s.retractAll.index = s.index ∧ s.retractAll.journal = s.journal
    ∧ s.retractAll.apply = s.apply ∧ s.retractAll.ckpt = s.ckpt ∧ s.retractAll.service = s.service ∧
    s.retractAll.engine = s.engine ∧ s.retractAll.mgmt = s.mgmt ∧ s.retractAll.freeCount = s.freeCount ∧
    s.retractAll.pending = s.pending :=
  ⟨rfl, rfl, rfl, rfl, rfl, rfl, rfl, rfl, rfl, rfl, rfl, rfl, rfl, rfl⟩

@[simp] theorem State.endHold_keeps (s : State) (st : Stream) :
    (s.endHold st).run = s.run ∧ (s.endHold st).abase = s.abase ∧ (s.endHold st).now = s.now ∧ (s.endHold
    st).ports = s.ports ∧ (s.endHold st).profile = s.profile ∧ (s.endHold st).groups = s.groups ∧ (s.endHold
    st).pool = s.pool ∧ (s.endHold st).index = s.index ∧ (s.endHold st).journal = s.journal ∧ (s.endHold
    st).apply = s.apply ∧ (s.endHold st).ckpt = s.ckpt ∧ (s.endHold st).mem = s.mem ∧ (s.endHold st).service =
    s.service ∧ (s.endHold st).engine = s.engine ∧ (s.endHold st).mgmt = s.mgmt ∧ (s.endHold st).out = s.out ∧
    (s.endHold st).freeCount = s.freeCount ∧ (s.endHold st).pending = s.pending :=
  ⟨rfl, rfl, rfl, rfl, rfl, rfl, rfl, rfl, rfl, rfl, rfl, rfl, rfl, rfl, rfl, rfl, rfl, rfl⟩

@[simp] theorem State.holdWrite_keeps (s : State) (st : Stream) (i : Fin 4) (k : HoldKind) (w : List Stream) :
    (s.holdWrite st i k w).run = s.run ∧ (s.holdWrite st i k w).abase = s.abase ∧ (s.holdWrite st i k w).now =
    s.now ∧ (s.holdWrite st i k w).profile = s.profile ∧ (s.holdWrite st i k w).groups = s.groups ∧
    (s.holdWrite st i k w).pool = s.pool ∧ (s.holdWrite st i k w).index = s.index ∧ (s.holdWrite st i k
    w).journal = s.journal ∧ (s.holdWrite st i k w).apply = s.apply ∧ (s.holdWrite st i k w).ckpt = s.ckpt ∧
    (s.holdWrite st i k w).mem = s.mem ∧ (s.holdWrite st i k w).service = s.service ∧ (s.holdWrite st i k
    w).engine = s.engine ∧ (s.holdWrite st i k w).mgmt = s.mgmt ∧ (s.holdWrite st i k w).out = s.out ∧
    (s.holdWrite st i k w).freeCount = s.freeCount ∧ (s.holdWrite st i k w).pending = s.pending :=
  ⟨rfl, rfl, rfl, rfl, rfl, rfl, rfl, rfl, rfl, rfl, rfl, rfl, rfl, rfl, rfl, rfl, rfl⟩

@[simp] theorem State.owe_keeps (s : State) (f : Stream → HeldWrite → Bool) :
    (s.owe f).run = s.run ∧ (s.owe f).abase = s.abase ∧ (s.owe f).now = s.now ∧ (s.owe f).ports = s.ports ∧
    (s.owe f).profile = s.profile ∧ (s.owe f).groups = s.groups ∧ (s.owe f).pool = s.pool ∧ (s.owe f).index =
    s.index ∧ (s.owe f).journal = s.journal ∧ (s.owe f).apply = s.apply ∧ (s.owe f).ckpt = s.ckpt ∧ (s.owe
    f).mem = s.mem ∧ (s.owe f).service = s.service ∧ (s.owe f).engine = s.engine ∧ (s.owe f).mgmt = s.mgmt ∧
    (s.owe f).out = s.out ∧ (s.owe f).freeCount = s.freeCount ∧ (s.owe f).pending = s.pending :=
  ⟨rfl, rfl, rfl, rfl, rfl, rfl, rfl, rfl, rfl, rfl, rfl, rfl, rfl, rfl, rfl, rfl, rfl, rfl⟩

@[simp] theorem State.oweRetire_keeps (s : State) :
    s.oweRetire.run = s.run ∧ s.oweRetire.abase = s.abase ∧ s.oweRetire.now = s.now ∧ s.oweRetire.ports =
    s.ports ∧ s.oweRetire.profile = s.profile ∧ s.oweRetire.groups = s.groups ∧ s.oweRetire.pool = s.pool ∧
    s.oweRetire.index = s.index ∧ s.oweRetire.journal = s.journal ∧ s.oweRetire.apply = s.apply ∧
    s.oweRetire.ckpt = s.ckpt ∧ s.oweRetire.mem = s.mem ∧ s.oweRetire.service = s.service ∧ s.oweRetire.engine
    = s.engine ∧ s.oweRetire.mgmt = s.mgmt ∧ s.oweRetire.out = s.out ∧ s.oweRetire.freeCount = s.freeCount ∧
    s.oweRetire.pending = s.pending :=
  ⟨rfl, rfl, rfl, rfl, rfl, rfl, rfl, rfl, rfl, rfl, rfl, rfl, rfl, rfl, rfl, rfl, rfl, rfl⟩

@[simp] theorem State.oweSpace_keeps (s : State) :
    s.oweSpace.run = s.run ∧ s.oweSpace.abase = s.abase ∧ s.oweSpace.now = s.now ∧ s.oweSpace.ports = s.ports
    ∧ s.oweSpace.profile = s.profile ∧ s.oweSpace.groups = s.groups ∧ s.oweSpace.pool = s.pool ∧
    s.oweSpace.index = s.index ∧ s.oweSpace.journal = s.journal ∧ s.oweSpace.apply = s.apply ∧ s.oweSpace.ckpt
    = s.ckpt ∧ s.oweSpace.mem = s.mem ∧ s.oweSpace.service = s.service ∧ s.oweSpace.engine = s.engine ∧
    s.oweSpace.mgmt = s.mgmt ∧ s.oweSpace.out = s.out ∧ s.oweSpace.freeCount = s.freeCount ∧
    s.oweSpace.pending = s.pending :=
  ⟨rfl, rfl, rfl, rfl, rfl, rfl, rfl, rfl, rfl, rfl, rfl, rfl, rfl, rfl, rfl, rfl, rfl, rfl⟩

@[simp] theorem State.oweQuiesce_keeps (s : State) :
    s.oweQuiesce.run = s.run ∧ s.oweQuiesce.abase = s.abase ∧ s.oweQuiesce.now = s.now ∧ s.oweQuiesce.ports =
    s.ports ∧ s.oweQuiesce.profile = s.profile ∧ s.oweQuiesce.groups = s.groups ∧ s.oweQuiesce.pool = s.pool ∧
    s.oweQuiesce.index = s.index ∧ s.oweQuiesce.journal = s.journal ∧ s.oweQuiesce.apply = s.apply ∧
    s.oweQuiesce.ckpt = s.ckpt ∧ s.oweQuiesce.mem = s.mem ∧ s.oweQuiesce.service = s.service ∧
    s.oweQuiesce.engine = s.engine ∧ s.oweQuiesce.mgmt = s.mgmt ∧ s.oweQuiesce.out = s.out ∧
    s.oweQuiesce.freeCount = s.freeCount ∧ s.oweQuiesce.pending = s.pending :=
  ⟨rfl, rfl, rfl, rfl, rfl, rfl, rfl, rfl, rfl, rfl, rfl, rfl, rfl, rfl, rfl, rfl, rfl, rfl⟩

@[simp] theorem State.oweConflict_keeps (s : State) (ls : List Line) :
    (s.oweConflict ls).run = s.run ∧ (s.oweConflict ls).abase = s.abase ∧ (s.oweConflict ls).now = s.now ∧
    (s.oweConflict ls).ports = s.ports ∧ (s.oweConflict ls).profile = s.profile ∧ (s.oweConflict ls).groups =
    s.groups ∧ (s.oweConflict ls).pool = s.pool ∧ (s.oweConflict ls).index = s.index ∧ (s.oweConflict
    ls).journal = s.journal ∧ (s.oweConflict ls).apply = s.apply ∧ (s.oweConflict ls).ckpt = s.ckpt ∧
    (s.oweConflict ls).mem = s.mem ∧ (s.oweConflict ls).service = s.service ∧ (s.oweConflict ls).engine =
    s.engine ∧ (s.oweConflict ls).mgmt = s.mgmt ∧ (s.oweConflict ls).out = s.out ∧ (s.oweConflict
    ls).freeCount = s.freeCount ∧ (s.oweConflict ls).pending = s.pending :=
  ⟨rfl, rfl, rfl, rfl, rfl, rfl, rfl, rfl, rfl, rfl, rfl, rfl, rfl, rfl, rfl, rfl, rfl, rfl⟩

@[simp] theorem State.updateGroup_keeps (s : State) (ref : Nat) (f : Group → Group) :
    (s.updateGroup ref f).run = s.run ∧ (s.updateGroup ref f).abase = s.abase ∧ (s.updateGroup ref f).now =
    s.now ∧ (s.updateGroup ref f).ports = s.ports ∧ (s.updateGroup ref f).profile = s.profile ∧ (s.updateGroup
    ref f).pool = s.pool ∧ (s.updateGroup ref f).index = s.index ∧ (s.updateGroup ref f).holds = s.holds ∧
    (s.updateGroup ref f).journal = s.journal ∧ (s.updateGroup ref f).apply = s.apply ∧ (s.updateGroup ref
    f).ckpt = s.ckpt ∧ (s.updateGroup ref f).mem = s.mem ∧ (s.updateGroup ref f).service = s.service ∧
    (s.updateGroup ref f).engine = s.engine ∧ (s.updateGroup ref f).mgmt = s.mgmt ∧ (s.updateGroup ref f).out
    = s.out ∧ (s.updateGroup ref f).freeCount = s.freeCount ∧ (s.updateGroup ref f).pending = s.pending :=
  ⟨rfl, rfl, rfl, rfl, rfl, rfl, rfl, rfl, rfl, rfl, rfl, rfl, rfl, rfl, rfl, rfl, rfl, rfl⟩

@[simp] theorem State.openGroup_keeps (s : State) (st : Stream) :
    (s.openGroup st).run = s.run ∧ (s.openGroup st).abase = s.abase ∧ (s.openGroup st).now = s.now ∧
    (s.openGroup st).ports = s.ports ∧ (s.openGroup st).profile = s.profile ∧ (s.openGroup st).pool = s.pool ∧
    (s.openGroup st).index = s.index ∧ (s.openGroup st).holds = s.holds ∧ (s.openGroup st).journal = s.journal
    ∧ (s.openGroup st).apply = s.apply ∧ (s.openGroup st).ckpt = s.ckpt ∧ (s.openGroup st).mem = s.mem ∧
    (s.openGroup st).service = s.service ∧ (s.openGroup st).engine = s.engine ∧ (s.openGroup st).mgmt = s.mgmt
    ∧ (s.openGroup st).out = s.out ∧ (s.openGroup st).freeCount = s.freeCount ∧ (s.openGroup st).pending =
    s.pending :=
  ⟨rfl, rfl, rfl, rfl, rfl, rfl, rfl, rfl, rfl, rfl, rfl, rfl, rfl, rfl, rfl, rfl, rfl, rfl⟩

@[simp] theorem State.queueEntry_keeps (s : State) (st : Stream) (g : Group) (id : SlotId) :
    (s.queueEntry st g id).run = s.run ∧ (s.queueEntry st g id).abase = s.abase ∧ (s.queueEntry st g id).now =
    s.now ∧ (s.queueEntry st g id).ports = s.ports ∧ (s.queueEntry st g id).profile = s.profile ∧
    (s.queueEntry st g id).pool = s.pool ∧ (s.queueEntry st g id).index = s.index ∧ (s.queueEntry st g
    id).holds = s.holds ∧ (s.queueEntry st g id).apply = s.apply ∧ (s.queueEntry st g id).ckpt = s.ckpt ∧
    (s.queueEntry st g id).mem = s.mem ∧ (s.queueEntry st g id).service = s.service ∧ (s.queueEntry st g
    id).engine = s.engine ∧ (s.queueEntry st g id).mgmt = s.mgmt ∧ (s.queueEntry st g id).out = s.out ∧
    (s.queueEntry st g id).freeCount = s.freeCount ∧ (s.queueEntry st g id).pending = s.pending :=
  ⟨rfl, rfl, rfl, rfl, rfl, rfl, rfl, rfl, rfl, rfl, rfl, rfl, rfl, rfl, rfl, rfl, rfl⟩

@[simp] theorem State.takeLine_keeps (s : State) (st : Stream) (l : Line) (c : List (Option Byte)) :
    (s.takeLine st l c).run = s.run ∧ (s.takeLine st l c).abase = s.abase ∧ (s.takeLine st l c).now = s.now ∧
    (s.takeLine st l c).ports = s.ports ∧ (s.takeLine st l c).profile = s.profile ∧ (s.takeLine st l c).holds
    = s.holds ∧ (s.takeLine st l c).apply = s.apply ∧ (s.takeLine st l c).ckpt = s.ckpt ∧ (s.takeLine st l
    c).mem = s.mem ∧ (s.takeLine st l c).service = s.service ∧ (s.takeLine st l c).engine = s.engine ∧
    (s.takeLine st l c).mgmt = s.mgmt ∧ (s.takeLine st l c).out = s.out ∧ (s.takeLine st l c).freeCount =
    s.freeCount ∧ (s.takeLine st l c).pending = s.pending := by
  unfold State.takeLine
  (repeat' split) <;> simp

@[simp] theorem State.takeLines_keeps (s : State) (st : Stream) (r : Request) :
    (s.takeLines st r).run = s.run ∧ (s.takeLines st r).abase = s.abase ∧ (s.takeLines st r).now = s.now ∧
    (s.takeLines st r).ports = s.ports ∧ (s.takeLines st r).profile = s.profile ∧ (s.takeLines st r).holds =
    s.holds ∧ (s.takeLines st r).apply = s.apply ∧ (s.takeLines st r).ckpt = s.ckpt ∧ (s.takeLines st r).mem =
    s.mem ∧ (s.takeLines st r).service = s.service ∧ (s.takeLines st r).engine = s.engine ∧ (s.takeLines st
    r).mgmt = s.mgmt ∧ (s.takeLines st r).out = s.out ∧ (s.takeLines st r).freeCount = s.freeCount ∧
    (s.takeLines st r).pending = s.pending := by
  unfold State.takeLines
  induction r.visited generalizing s with
  | nil => simp
  | cons l ls ih => simpa using ih (s.takeLine st l (r.cells l))

@[simp] theorem State.sealGroup_keeps (s : State) (st : Stream) (i t : Fin 4) :
    (s.sealGroup st i t).run = s.run ∧ (s.sealGroup st i t).abase = s.abase ∧ (s.sealGroup st i t).now = s.now
    ∧ (s.sealGroup st i t).profile = s.profile ∧ (s.sealGroup st i t).pool = s.pool ∧ (s.sealGroup st i
    t).holds = s.holds ∧ (s.sealGroup st i t).apply = s.apply ∧ (s.sealGroup st i t).ckpt = s.ckpt ∧
    (s.sealGroup st i t).mem = s.mem ∧ (s.sealGroup st i t).service = s.service ∧ (s.sealGroup st i t).engine
    = s.engine ∧ (s.sealGroup st i t).mgmt = s.mgmt ∧ (s.sealGroup st i t).out = s.out ∧ (s.sealGroup st i
    t).freeCount = s.freeCount ∧ (s.sealGroup st i t).pending = s.pending := by
  unfold State.sealGroup
  split <;> simp

@[simp] theorem State.takeWrite_keeps (s : State) (st : Stream) (p : Place) (c : Bool) :
    (s.takeWrite st p c).run = s.run ∧ (s.takeWrite st p c).abase = s.abase ∧ (s.takeWrite st p c).now = s.now
    ∧ (s.takeWrite st p c).profile = s.profile ∧ (s.takeWrite st p c).apply = s.apply ∧ (s.takeWrite st p
    c).ckpt = s.ckpt ∧ (s.takeWrite st p c).mem = s.mem ∧ (s.takeWrite st p c).service = s.service ∧
    (s.takeWrite st p c).engine = s.engine ∧ (s.takeWrite st p c).mgmt = s.mgmt ∧ (s.takeWrite st p c).out =
    s.out ∧ (s.takeWrite st p c).freeCount = s.freeCount ∧ (s.takeWrite st p c).pending = s.pending := by
  simp only [State.takeWrite]
  (repeat' split) <;> simp

@[simp] theorem State.wantCheckpoint_keeps (s : State) :
    s.wantCheckpoint.run = s.run ∧ s.wantCheckpoint.abase = s.abase ∧ s.wantCheckpoint.now = s.now ∧
    s.wantCheckpoint.ports = s.ports ∧ s.wantCheckpoint.profile = s.profile ∧ s.wantCheckpoint.groups =
    s.groups ∧ s.wantCheckpoint.pool = s.pool ∧ s.wantCheckpoint.index = s.index ∧ s.wantCheckpoint.holds =
    s.holds ∧ s.wantCheckpoint.journal = s.journal ∧ s.wantCheckpoint.apply = s.apply ∧ s.wantCheckpoint.mem =
    s.mem ∧ s.wantCheckpoint.service = s.service ∧ s.wantCheckpoint.engine = s.engine ∧ s.wantCheckpoint.mgmt
    = s.mgmt ∧ s.wantCheckpoint.out = s.out ∧ s.wantCheckpoint.freeCount = s.freeCount ∧
    s.wantCheckpoint.pending = s.pending :=
  ⟨rfl, rfl, rfl, rfl, rfl, rfl, rfl, rfl, rfl, rfl, rfl, rfl, rfl, rfl, rfl, rfl, rfl, rfl⟩

@[simp] theorem State.requestCheckpoint_keeps (s : State) (r : CheckpointRequest) :
    (s.requestCheckpoint r).run = s.run ∧ (s.requestCheckpoint r).abase = s.abase ∧ (s.requestCheckpoint
    r).now = s.now ∧ (s.requestCheckpoint r).ports = s.ports ∧ (s.requestCheckpoint r).profile = s.profile ∧
    (s.requestCheckpoint r).groups = s.groups ∧ (s.requestCheckpoint r).pool = s.pool ∧ (s.requestCheckpoint
    r).index = s.index ∧ (s.requestCheckpoint r).holds = s.holds ∧ (s.requestCheckpoint r).journal = s.journal
    ∧ (s.requestCheckpoint r).apply = s.apply ∧ (s.requestCheckpoint r).mem = s.mem ∧ (s.requestCheckpoint
    r).service = s.service ∧ (s.requestCheckpoint r).engine = s.engine ∧ (s.requestCheckpoint r).mgmt = s.mgmt
    ∧ (s.requestCheckpoint r).out = s.out ∧ (s.requestCheckpoint r).freeCount = s.freeCount ∧
    (s.requestCheckpoint r).pending = s.pending :=
  ⟨rfl, rfl, rfl, rfl, rfl, rfl, rfl, rfl, rfl, rfl, rfl, rfl, rfl, rfl, rfl, rfl, rfl, rfl⟩

@[simp] theorem State.distanceTrigger_keeps (s : State) :
    s.distanceTrigger.run = s.run ∧ s.distanceTrigger.abase = s.abase ∧ s.distanceTrigger.now = s.now ∧
    s.distanceTrigger.ports = s.ports ∧ s.distanceTrigger.profile = s.profile ∧ s.distanceTrigger.groups =
    s.groups ∧ s.distanceTrigger.pool = s.pool ∧ s.distanceTrigger.index = s.index ∧ s.distanceTrigger.holds =
    s.holds ∧ s.distanceTrigger.journal = s.journal ∧ s.distanceTrigger.apply = s.apply ∧
    s.distanceTrigger.mem = s.mem ∧ s.distanceTrigger.service = s.service ∧ s.distanceTrigger.engine =
    s.engine ∧ s.distanceTrigger.mgmt = s.mgmt ∧ s.distanceTrigger.out = s.out ∧ s.distanceTrigger.freeCount =
    s.freeCount ∧ s.distanceTrigger.pending = s.pending := by
  unfold State.distanceTrigger
  split <;> simp

@[simp] theorem State.recomputeLiveTail_keeps (s : State) :
    s.recomputeLiveTail.run = s.run ∧ s.recomputeLiveTail.abase = s.abase ∧ s.recomputeLiveTail.now = s.now ∧
    s.recomputeLiveTail.ports = s.ports ∧ s.recomputeLiveTail.profile = s.profile ∧ s.recomputeLiveTail.groups
    = s.groups ∧ s.recomputeLiveTail.pool = s.pool ∧ s.recomputeLiveTail.index = s.index ∧
    s.recomputeLiveTail.holds = s.holds ∧ s.recomputeLiveTail.apply = s.apply ∧ s.recomputeLiveTail.ckpt =
    s.ckpt ∧ s.recomputeLiveTail.mem = s.mem ∧ s.recomputeLiveTail.service = s.service ∧
    s.recomputeLiveTail.engine = s.engine ∧ s.recomputeLiveTail.mgmt = s.mgmt ∧ s.recomputeLiveTail.out =
    s.out ∧ s.recomputeLiveTail.freeCount = s.freeCount ∧ s.recomputeLiveTail.pending = s.pending :=
  ⟨rfl, rfl, rfl, rfl, rfl, rfl, rfl, rfl, rfl, rfl, rfl, rfl, rfl, rfl, rfl, rfl, rfl, rfl⟩

@[simp] theorem State.quiesceTest_keeps (s : State) :
    s.quiesceTest.run = s.run ∧ s.quiesceTest.abase = s.abase ∧ s.quiesceTest.now = s.now ∧
    s.quiesceTest.ports = s.ports ∧ s.quiesceTest.profile = s.profile ∧ s.quiesceTest.groups = s.groups ∧
    s.quiesceTest.pool = s.pool ∧ s.quiesceTest.index = s.index ∧ s.quiesceTest.holds = s.holds ∧
    s.quiesceTest.journal = s.journal ∧ s.quiesceTest.apply = s.apply ∧ s.quiesceTest.mem = s.mem ∧
    s.quiesceTest.service = s.service ∧ s.quiesceTest.engine = s.engine ∧ s.quiesceTest.mgmt = s.mgmt ∧
    s.quiesceTest.out = s.out ∧ s.quiesceTest.freeCount = s.freeCount ∧ s.quiesceTest.pending = s.pending := by
  unfold State.quiesceTest
  split <;> simp

@[simp] theorem State.discardGroup_keeps (s : State) (st : Stream) (g : Group) (r : DiscardReason) :
    (s.discardGroup st g r).run = s.run ∧ (s.discardGroup st g r).abase = s.abase ∧ (s.discardGroup st g
    r).now = s.now ∧ (s.discardGroup st g r).ports = s.ports ∧ (s.discardGroup st g r).profile = s.profile ∧
    (s.discardGroup st g r).holds = s.holds ∧ (s.discardGroup st g r).apply = s.apply ∧ (s.discardGroup st g
    r).ckpt = s.ckpt ∧ (s.discardGroup st g r).mem = s.mem ∧ (s.discardGroup st g r).service = s.service ∧
    (s.discardGroup st g r).engine = s.engine ∧ (s.discardGroup st g r).out = s.out ∧ (s.discardGroup st g
    r).freeCount = s.freeCount ∧ (s.discardGroup st g r).pending = s.pending :=
  ⟨rfl, rfl, rfl, rfl, rfl, rfl, rfl, rfl, rfl, rfl, rfl, rfl, rfl, rfl⟩

@[simp] theorem State.afterDiscard_keeps (s : State) (ls : List Line) :
    (s.afterDiscard ls).run = s.run ∧ (s.afterDiscard ls).abase = s.abase ∧ (s.afterDiscard ls).now = s.now ∧
    (s.afterDiscard ls).ports = s.ports ∧ (s.afterDiscard ls).profile = s.profile ∧ (s.afterDiscard ls).groups
    = s.groups ∧ (s.afterDiscard ls).pool = s.pool ∧ (s.afterDiscard ls).index = s.index ∧ (s.afterDiscard
    ls).journal = s.journal ∧ (s.afterDiscard ls).apply = s.apply ∧ (s.afterDiscard ls).mem = s.mem ∧
    (s.afterDiscard ls).service = s.service ∧ (s.afterDiscard ls).engine = s.engine ∧ (s.afterDiscard ls).mgmt
    = s.mgmt ∧ (s.afterDiscard ls).out = s.out ∧ (s.afterDiscard ls).freeCount = s.freeCount ∧ (s.afterDiscard
    ls).pending = s.pending := by
  simp [State.afterDiscard]

@[simp] theorem State.discardOpenGroup_keeps (s : State) (st : Stream) (r : DiscardReason) :
    (s.discardOpenGroup st r).run = s.run ∧ (s.discardOpenGroup st r).abase = s.abase ∧ (s.discardOpenGroup st
    r).now = s.now ∧ (s.discardOpenGroup st r).ports = s.ports ∧ (s.discardOpenGroup st r).profile = s.profile
    ∧ (s.discardOpenGroup st r).apply = s.apply ∧ (s.discardOpenGroup st r).mem = s.mem ∧ (s.discardOpenGroup
    st r).service = s.service ∧ (s.discardOpenGroup st r).engine = s.engine ∧ (s.discardOpenGroup st r).out =
    s.out ∧ (s.discardOpenGroup st r).freeCount = s.freeCount ∧ (s.discardOpenGroup st r).pending = s.pending := by
  unfold State.discardOpenGroup
  split <;> simp

@[simp] theorem State.sealedEvent_keeps (s : State) (ref : Nat) :
    (s.sealedEvent ref).run = s.run ∧ (s.sealedEvent ref).abase = s.abase ∧ (s.sealedEvent ref).now = s.now ∧
    (s.sealedEvent ref).profile = s.profile ∧ (s.sealedEvent ref).pool = s.pool ∧ (s.sealedEvent ref).journal
    = s.journal ∧ (s.sealedEvent ref).apply = s.apply ∧ (s.sealedEvent ref).ckpt = s.ckpt ∧ (s.sealedEvent
    ref).mem = s.mem ∧ (s.sealedEvent ref).service = s.service ∧ (s.sealedEvent ref).engine = s.engine ∧
    (s.sealedEvent ref).out = s.out ∧ (s.sealedEvent ref).freeCount = s.freeCount ∧ (s.sealedEvent
    ref).pending = s.pending := by
  unfold State.sealedEvent
  split <;> simp

@[simp] theorem State.retire_keeps (s : State) (g : Group) :
    (s.retire g).run = s.run ∧ (s.retire g).abase = s.abase ∧ (s.retire g).now = s.now ∧ (s.retire g).ports =
    s.ports ∧ (s.retire g).profile = s.profile ∧ (s.retire g).mem = s.mem ∧ (s.retire g).service = s.service ∧
    (s.retire g).engine = s.engine ∧ (s.retire g).mgmt = s.mgmt ∧ (s.retire g).out = s.out ∧ (s.retire
    g).freeCount = s.freeCount ∧ (s.retire g).pending = s.pending := by
  simp [State.retire]

@[simp] theorem State.issue_keeps (s : State) (p : Purpose) (r : MemRequest) :
    (s.issue p r).run = s.run ∧ (s.issue p r).abase = s.abase ∧ (s.issue p r).now = s.now ∧ (s.issue p
    r).ports = s.ports ∧ (s.issue p r).profile = s.profile ∧ (s.issue p r).groups = s.groups ∧ (s.issue p
    r).pool = s.pool ∧ (s.issue p r).index = s.index ∧ (s.issue p r).holds = s.holds ∧ (s.issue p r).journal =
    s.journal ∧ (s.issue p r).apply = s.apply ∧ (s.issue p r).ckpt = s.ckpt ∧ (s.issue p r).service =
    s.service ∧ (s.issue p r).engine = s.engine ∧ (s.issue p r).mgmt = s.mgmt ∧ (s.issue p r).freeCount =
    s.freeCount ∧ (s.issue p r).pending = s.pending :=
  ⟨rfl, rfl, rfl, rfl, rfl, rfl, rfl, rfl, rfl, rfl, rfl, rfl, rfl, rfl, rfl, rfl, rfl⟩

@[simp] theorem State.dropFront_keeps (s : State) :
    s.dropFront.run = s.run ∧ s.dropFront.abase = s.abase ∧ s.dropFront.now = s.now ∧ s.dropFront.ports =
    s.ports ∧ s.dropFront.profile = s.profile ∧ s.dropFront.groups = s.groups ∧ s.dropFront.pool = s.pool ∧
    s.dropFront.index = s.index ∧ s.dropFront.holds = s.holds ∧ s.dropFront.journal = s.journal ∧
    s.dropFront.apply = s.apply ∧ s.dropFront.ckpt = s.ckpt ∧ s.dropFront.service = s.service ∧
    s.dropFront.engine = s.engine ∧ s.dropFront.mgmt = s.mgmt ∧ s.dropFront.out = s.out ∧
    s.dropFront.freeCount = s.freeCount ∧ s.dropFront.pending = s.pending :=
  ⟨rfl, rfl, rfl, rfl, rfl, rfl, rfl, rfl, rfl, rfl, rfl, rfl, rfl, rfl, rfl, rfl, rfl, rfl⟩

@[simp] theorem State.ignore_keeps (s : State) (f : Purpose → Bool) :
    (s.ignore f).run = s.run ∧ (s.ignore f).abase = s.abase ∧ (s.ignore f).now = s.now ∧ (s.ignore f).ports =
    s.ports ∧ (s.ignore f).profile = s.profile ∧ (s.ignore f).groups = s.groups ∧ (s.ignore f).pool = s.pool ∧
    (s.ignore f).index = s.index ∧ (s.ignore f).holds = s.holds ∧ (s.ignore f).journal = s.journal ∧ (s.ignore
    f).apply = s.apply ∧ (s.ignore f).ckpt = s.ckpt ∧ (s.ignore f).service = s.service ∧ (s.ignore f).engine =
    s.engine ∧ (s.ignore f).mgmt = s.mgmt ∧ (s.ignore f).out = s.out ∧ (s.ignore f).freeCount = s.freeCount ∧
    (s.ignore f).pending = s.pending :=
  ⟨rfl, rfl, rfl, rfl, rfl, rfl, rfl, rfl, rfl, rfl, rfl, rfl, rfl, rfl, rfl, rfl, rfl, rfl⟩

@[simp] theorem State.refreshReady_keeps (s : State) :
    s.refreshReady.run = s.run ∧ s.refreshReady.abase = s.abase ∧ s.refreshReady.now = s.now ∧
    s.refreshReady.ports = s.ports ∧ s.refreshReady.profile = s.profile ∧ s.refreshReady.groups = s.groups ∧
    s.refreshReady.pool = s.pool ∧ s.refreshReady.index = s.index ∧ s.refreshReady.holds = s.holds ∧
    s.refreshReady.journal = s.journal ∧ s.refreshReady.apply = s.apply ∧ s.refreshReady.ckpt = s.ckpt ∧
    s.refreshReady.mem = s.mem ∧ s.refreshReady.engine = s.engine ∧ s.refreshReady.mgmt = s.mgmt ∧
    s.refreshReady.out = s.out ∧ s.refreshReady.pending = s.pending := by
  simp only [State.refreshReady]
  split <;> simp

@[simp] theorem State.finish_keeps (s : State) :
    s.finish.run = s.run ∧ s.finish.abase = s.abase ∧ s.finish.now = s.now ∧ s.finish.profile = s.profile ∧
    s.finish.groups = s.groups ∧ s.finish.pool = s.pool ∧ s.finish.index = s.index ∧ s.finish.holds = s.holds
    ∧ s.finish.journal = s.journal ∧ s.finish.apply = s.apply ∧ s.finish.ckpt = s.ckpt ∧ s.finish.mem = s.mem
    ∧ s.finish.engine = s.engine ∧ s.finish.mgmt = s.mgmt ∧ s.finish.pending = s.pending := by
  simp [State.finish]

@[simp] theorem State.handOver_keeps (s : State) (st : Stream) (p : Place) (m : Bool) :
    (s.handOver st p m).run = s.run ∧ (s.handOver st p m).abase = s.abase ∧ (s.handOver st p m).now = s.now ∧
    (s.handOver st p m).ports = s.ports ∧ (s.handOver st p m).profile = s.profile ∧ (s.handOver st p m).groups
    = s.groups ∧ (s.handOver st p m).pool = s.pool ∧ (s.handOver st p m).index = s.index ∧ (s.handOver st p
    m).holds = s.holds ∧ (s.handOver st p m).journal = s.journal ∧ (s.handOver st p m).apply = s.apply ∧
    (s.handOver st p m).ckpt = s.ckpt ∧ (s.handOver st p m).service = s.service ∧ (s.handOver st p m).engine =
    s.engine ∧ (s.handOver st p m).mgmt = s.mgmt ∧ (s.handOver st p m).out = s.out ∧ (s.handOver st p
    m).freeCount = s.freeCount ∧ (s.handOver st p m).pending = s.pending :=
  ⟨rfl, rfl, rfl, rfl, rfl, rfl, rfl, rfl, rfl, rfl, rfl, rfl, rfl, rfl, rfl, rfl, rfl, rfl⟩

@[simp] theorem State.passThrough_keeps (s : State) (st : Stream) (p : Place) (c : Bool) :
    (s.passThrough st p c).run = s.run ∧ (s.passThrough st p c).abase = s.abase ∧ (s.passThrough st p c).now =
    s.now ∧ (s.passThrough st p c).profile = s.profile ∧ (s.passThrough st p c).apply = s.apply ∧
    (s.passThrough st p c).service = s.service ∧ (s.passThrough st p c).engine = s.engine ∧ (s.passThrough st
    p c).out = s.out ∧ (s.passThrough st p c).freeCount = s.freeCount ∧ (s.passThrough st p c).pending =
    s.pending := by
  unfold State.passThrough
  split <;> simp

@[simp] theorem State.mergedRead_keeps (s : State) (st : Stream) (p : Place) :
    (s.mergedRead st p).run = s.run ∧ (s.mergedRead st p).abase = s.abase ∧ (s.mergedRead st p).now = s.now ∧
    (s.mergedRead st p).profile = s.profile ∧ (s.mergedRead st p).groups = s.groups ∧ (s.mergedRead st p).pool
    = s.pool ∧ (s.mergedRead st p).index = s.index ∧ (s.mergedRead st p).holds = s.holds ∧ (s.mergedRead st
    p).journal = s.journal ∧ (s.mergedRead st p).apply = s.apply ∧ (s.mergedRead st p).ckpt = s.ckpt ∧
    (s.mergedRead st p).service = s.service ∧ (s.mergedRead st p).engine = s.engine ∧ (s.mergedRead st p).mgmt
    = s.mgmt ∧ (s.mergedRead st p).out = s.out ∧ (s.mergedRead st p).freeCount = s.freeCount ∧ (s.mergedRead
    st p).pending = s.pending :=
  ⟨rfl, rfl, rfl, rfl, rfl, rfl, rfl, rfl, rfl, rfl, rfl, rfl, rfl, rfl, rfl, rfl, rfl⟩

@[simp] theorem State.park_keeps (s : State) (st : Stream) (p : Place) (k : HoldKind) (w : List Stream) (b : Bool) :
    (s.park st p k w b).run = s.run ∧ (s.park st p k w b).abase = s.abase ∧ (s.park st p k w b).now = s.now ∧
    (s.park st p k w b).profile = s.profile ∧ (s.park st p k w b).groups = s.groups ∧ (s.park st p k w b).pool
    = s.pool ∧ (s.park st p k w b).index = s.index ∧ (s.park st p k w b).journal = s.journal ∧ (s.park st p k
    w b).apply = s.apply ∧ (s.park st p k w b).mem = s.mem ∧ (s.park st p k w b).service = s.service ∧ (s.park
    st p k w b).engine = s.engine ∧ (s.park st p k w b).mgmt = s.mgmt ∧ (s.park st p k w b).out = s.out ∧
    (s.park st p k w b).freeCount = s.freeCount ∧ (s.park st p k w b).pending = s.pending := by
  unfold State.park
  split <;> simp

@[simp] theorem State.act_keeps (s : State) (st : Stream) (p : Place) (v : Verdict) :
    (s.act st p v).run = s.run ∧ (s.act st p v).abase = s.abase ∧ (s.act st p v).now = s.now ∧ (s.act st p
    v).profile = s.profile ∧ (s.act st p v).apply = s.apply ∧ (s.act st p v).service = s.service ∧ (s.act st p
    v).engine = s.engine ∧ (s.act st p v).out = s.out ∧ (s.act st p v).freeCount = s.freeCount ∧ (s.act st p
    v).pending = s.pending := by
  cases v <;> simp [State.act]

@[simp] theorem State.examine_keeps (s : State) (st : Stream) (p : Place) :
    (s.examine st p).run = s.run ∧ (s.examine st p).abase = s.abase ∧ (s.examine st p).now = s.now ∧
    (s.examine st p).profile = s.profile ∧ (s.examine st p).apply = s.apply ∧ (s.examine st p).service =
    s.service ∧ (s.examine st p).engine = s.engine ∧ (s.examine st p).out = s.out ∧ (s.examine st p).freeCount
    = s.freeCount ∧ (s.examine st p).pending = s.pending := by
  simp [State.examine]

@[simp] theorem State.endCommandWith_keeps (s : State) (r : Result) (i : Byte) (t : BitVec 4) :
    (s.endCommandWith r i t).run = s.run ∧ (s.endCommandWith r i t).abase = s.abase ∧ (s.endCommandWith r i
    t).now = s.now ∧ (s.endCommandWith r i t).ports = s.ports ∧ (s.endCommandWith r i t).profile = s.profile ∧
    (s.endCommandWith r i t).groups = s.groups ∧ (s.endCommandWith r i t).pool = s.pool ∧ (s.endCommandWith r
    i t).index = s.index ∧ (s.endCommandWith r i t).holds = s.holds ∧ (s.endCommandWith r i t).journal =
    s.journal ∧ (s.endCommandWith r i t).apply = s.apply ∧ (s.endCommandWith r i t).ckpt = s.ckpt ∧
    (s.endCommandWith r i t).mem = s.mem ∧ (s.endCommandWith r i t).service = s.service ∧ (s.endCommandWith r
    i t).engine = s.engine ∧ (s.endCommandWith r i t).out = s.out ∧ (s.endCommandWith r i t).freeCount =
    s.freeCount ∧ (s.endCommandWith r i t).pending = s.pending := by
  unfold State.endCommandWith
  split <;> simp

@[simp] theorem State.endCommand_keeps (s : State) (r : Result) :
    (s.endCommand r).run = s.run ∧ (s.endCommand r).abase = s.abase ∧ (s.endCommand r).now = s.now ∧
    (s.endCommand r).ports = s.ports ∧ (s.endCommand r).profile = s.profile ∧ (s.endCommand r).groups =
    s.groups ∧ (s.endCommand r).pool = s.pool ∧ (s.endCommand r).index = s.index ∧ (s.endCommand r).holds =
    s.holds ∧ (s.endCommand r).journal = s.journal ∧ (s.endCommand r).apply = s.apply ∧ (s.endCommand r).ckpt
    = s.ckpt ∧ (s.endCommand r).mem = s.mem ∧ (s.endCommand r).service = s.service ∧ (s.endCommand r).engine =
    s.engine ∧ (s.endCommand r).out = s.out ∧ (s.endCommand r).freeCount = s.freeCount ∧ (s.endCommand
    r).pending = s.pending := by
  simp [State.endCommand]

@[simp] theorem State.endIf_keeps (s : State) (c : Command) (r : Result) :
    (s.endIf c r).run = s.run ∧ (s.endIf c r).abase = s.abase ∧ (s.endIf c r).now = s.now ∧ (s.endIf c
    r).ports = s.ports ∧ (s.endIf c r).profile = s.profile ∧ (s.endIf c r).groups = s.groups ∧ (s.endIf c
    r).pool = s.pool ∧ (s.endIf c r).index = s.index ∧ (s.endIf c r).holds = s.holds ∧ (s.endIf c r).journal =
    s.journal ∧ (s.endIf c r).apply = s.apply ∧ (s.endIf c r).ckpt = s.ckpt ∧ (s.endIf c r).mem = s.mem ∧
    (s.endIf c r).service = s.service ∧ (s.endIf c r).engine = s.engine ∧ (s.endIf c r).out = s.out ∧ (s.endIf
    c r).freeCount = s.freeCount ∧ (s.endIf c r).pending = s.pending := by
  unfold State.endIf
  split <;> simp

@[simp] theorem State.answerAtOnce_keeps (s : State) (c : Byte) (r : Result) (i : Byte) (t : BitVec 4) :
    (s.answerAtOnce c r i t).run = s.run ∧ (s.answerAtOnce c r i t).abase = s.abase ∧ (s.answerAtOnce c r i
    t).now = s.now ∧ (s.answerAtOnce c r i t).ports = s.ports ∧ (s.answerAtOnce c r i t).profile = s.profile ∧
    (s.answerAtOnce c r i t).groups = s.groups ∧ (s.answerAtOnce c r i t).pool = s.pool ∧ (s.answerAtOnce c r
    i t).index = s.index ∧ (s.answerAtOnce c r i t).holds = s.holds ∧ (s.answerAtOnce c r i t).journal =
    s.journal ∧ (s.answerAtOnce c r i t).apply = s.apply ∧ (s.answerAtOnce c r i t).ckpt = s.ckpt ∧
    (s.answerAtOnce c r i t).mem = s.mem ∧ (s.answerAtOnce c r i t).service = s.service ∧ (s.answerAtOnce c r
    i t).engine = s.engine ∧ (s.answerAtOnce c r i t).out = s.out ∧ (s.answerAtOnce c r i t).freeCount =
    s.freeCount ∧ (s.answerAtOnce c r i t).pending = s.pending :=
  ⟨rfl, rfl, rfl, rfl, rfl, rfl, rfl, rfl, rfl, rfl, rfl, rfl, rfl, rfl, rfl, rfl, rfl, rfl⟩

@[simp] theorem State.takeRunning_keeps (s : State) (c : Command) :
    (s.takeRunning c).run = s.run ∧ (s.takeRunning c).abase = s.abase ∧ (s.takeRunning c).now = s.now ∧
    (s.takeRunning c).ports = s.ports ∧ (s.takeRunning c).profile = s.profile ∧ (s.takeRunning c).groups =
    s.groups ∧ (s.takeRunning c).pool = s.pool ∧ (s.takeRunning c).index = s.index ∧ (s.takeRunning c).holds =
    s.holds ∧ (s.takeRunning c).journal = s.journal ∧ (s.takeRunning c).apply = s.apply ∧ (s.takeRunning
    c).ckpt = s.ckpt ∧ (s.takeRunning c).mem = s.mem ∧ (s.takeRunning c).service = s.service ∧ (s.takeRunning
    c).engine = s.engine ∧ (s.takeRunning c).out = s.out ∧ (s.takeRunning c).freeCount = s.freeCount ∧
    (s.takeRunning c).pending = s.pending :=
  ⟨rfl, rfl, rfl, rfl, rfl, rfl, rfl, rfl, rfl, rfl, rfl, rfl, rfl, rfl, rfl, rfl, rfl, rfl⟩

@[simp] theorem State.declineHeld_keeps (s : State) (r : DeclineReason) (st : Stream) :
    (s.declineHeld r st).run = s.run ∧ (s.declineHeld r st).abase = s.abase ∧ (s.declineHeld r st).now = s.now
    ∧ (s.declineHeld r st).profile = s.profile ∧ (s.declineHeld r st).groups = s.groups ∧ (s.declineHeld r
    st).pool = s.pool ∧ (s.declineHeld r st).index = s.index ∧ (s.declineHeld r st).journal = s.journal ∧
    (s.declineHeld r st).apply = s.apply ∧ (s.declineHeld r st).ckpt = s.ckpt ∧ (s.declineHeld r st).mem =
    s.mem ∧ (s.declineHeld r st).service = s.service ∧ (s.declineHeld r st).engine = s.engine ∧ (s.declineHeld
    r st).out = s.out ∧ (s.declineHeld r st).freeCount = s.freeCount ∧ (s.declineHeld r st).pending =
    s.pending := by
  unfold State.declineHeld
  (repeat' split) <;> simp

@[simp] theorem State.failClear_keeps (s : State) :
    s.failClear.run = s.run ∧ s.failClear.abase = s.abase ∧ s.failClear.now = s.now ∧ s.failClear.ports =
    s.ports ∧ s.failClear.profile = s.profile ∧ s.failClear.groups = s.groups ∧ s.failClear.pool = s.pool ∧
    s.failClear.index = s.index ∧ s.failClear.holds = s.holds ∧ s.failClear.journal = s.journal ∧
    s.failClear.apply = s.apply ∧ s.failClear.mem = s.mem ∧ s.failClear.service = s.service ∧ s.failClear.out
    = s.out ∧ s.failClear.freeCount = s.freeCount ∧ s.failClear.pending = s.pending := by
  simp [State.failClear]

@[simp] theorem State.enterFaulted_keeps (s : State) (c : FaultCause) (a : Option CheckpointRequest) :
    (s.enterFaulted c a).run = s.run ∧ (s.enterFaulted c a).abase = s.abase ∧ (s.enterFaulted c a).now = s.now
    ∧ (s.enterFaulted c a).profile = s.profile ∧ (s.enterFaulted c a).groups = s.groups ∧ (s.enterFaulted c
    a).pool = s.pool ∧ (s.enterFaulted c a).index = s.index ∧ (s.enterFaulted c a).journal = s.journal ∧
    (s.enterFaulted c a).apply = s.apply ∧ (s.enterFaulted c a).ckpt = s.ckpt ∧ (s.enterFaulted c a).mem =
    s.mem ∧ (s.enterFaulted c a).service = s.service ∧ (s.enterFaulted c a).out = s.out ∧ (s.enterFaulted c
    a).freeCount = s.freeCount ∧ (s.enterFaulted c a).pending = s.pending := by
  unfold State.enterFaulted
  simp only [allStreams, List.foldl]
  split <;> simp

@[simp] theorem State.report_keeps (s : State) (c : FaultCause) (a : Option CheckpointRequest) :
    (s.report c a).run = s.run ∧ (s.report c a).abase = s.abase ∧ (s.report c a).now = s.now ∧ (s.report c
    a).profile = s.profile ∧ (s.report c a).groups = s.groups ∧ (s.report c a).pool = s.pool ∧ (s.report c
    a).index = s.index ∧ (s.report c a).journal = s.journal ∧ (s.report c a).apply = s.apply ∧ (s.report c
    a).mem = s.mem ∧ (s.report c a).service = s.service ∧ (s.report c a).out = s.out ∧ (s.report c
    a).freeCount = s.freeCount ∧ (s.report c a).pending = s.pending := by
  simp only [State.report]
  (repeat' split) <;> simp

@[simp] theorem State.dropCause_keeps (s : State) (c : FaultCause) :
    (s.dropCause c).run = s.run ∧ (s.dropCause c).abase = s.abase ∧ (s.dropCause c).now = s.now ∧ (s.dropCause
    c).ports = s.ports ∧ (s.dropCause c).profile = s.profile ∧ (s.dropCause c).groups = s.groups ∧
    (s.dropCause c).pool = s.pool ∧ (s.dropCause c).index = s.index ∧ (s.dropCause c).holds = s.holds ∧
    (s.dropCause c).journal = s.journal ∧ (s.dropCause c).apply = s.apply ∧ (s.dropCause c).ckpt = s.ckpt ∧
    (s.dropCause c).mem = s.mem ∧ (s.dropCause c).service = s.service ∧ (s.dropCause c).mgmt = s.mgmt ∧
    (s.dropCause c).out = s.out ∧ (s.dropCause c).freeCount = s.freeCount ∧ (s.dropCause c).pending =
    s.pending :=
  ⟨rfl, rfl, rfl, rfl, rfl, rfl, rfl, rfl, rfl, rfl, rfl, rfl, rfl, rfl, rfl, rfl, rfl, rfl⟩

@[simp] theorem State.recoveryDone_keeps (s : State) :
    s.recoveryDone.run = s.run ∧ s.recoveryDone.abase = s.abase ∧ s.recoveryDone.now = s.now ∧
    s.recoveryDone.ports = s.ports ∧ s.recoveryDone.profile = s.profile ∧ s.recoveryDone.groups = s.groups ∧
    s.recoveryDone.pool = s.pool ∧ s.recoveryDone.index = s.index ∧ s.recoveryDone.holds = s.holds ∧
    s.recoveryDone.journal = s.journal ∧ s.recoveryDone.apply = s.apply ∧ s.recoveryDone.ckpt = s.ckpt ∧
    s.recoveryDone.mem = s.mem ∧ s.recoveryDone.engine = s.engine ∧ s.recoveryDone.out = s.out ∧
    s.recoveryDone.freeCount = s.freeCount ∧ s.recoveryDone.pending = s.pending :=
  ⟨rfl, rfl, rfl, rfl, rfl, rfl, rfl, rfl, rfl, rfl, rfl, rfl, rfl, rfl, rfl, rfl, rfl⟩

@[simp] theorem State.activate_keeps (s : State) :
    s.activate.run = s.run ∧ s.activate.abase = s.abase ∧ s.activate.now = s.now ∧ s.activate.ports = s.ports
    ∧ s.activate.groups = s.groups ∧ s.activate.pool = s.pool ∧ s.activate.index = s.index ∧ s.activate.holds
    = s.holds ∧ s.activate.journal = s.journal ∧ s.activate.apply = s.apply ∧ s.activate.ckpt = s.ckpt ∧
    s.activate.mem = s.mem ∧ s.activate.service = s.service ∧ s.activate.mgmt = s.mgmt ∧ s.activate.out =
    s.out ∧ s.activate.freeCount = s.freeCount ∧ s.activate.pending = s.pending :=
  ⟨rfl, rfl, rfl, rfl, rfl, rfl, rfl, rfl, rfl, rfl, rfl, rfl, rfl, rfl, rfl, rfl, rfl⟩

@[simp] theorem State.finishClear_keeps (s : State) (a : Option CheckpointRequest) :
    (s.finishClear a).run = s.run ∧ (s.finishClear a).abase = s.abase ∧ (s.finishClear a).now = s.now ∧
    (s.finishClear a).ports = s.ports ∧ (s.finishClear a).groups = s.groups ∧ (s.finishClear a).pool = s.pool
    ∧ (s.finishClear a).index = s.index ∧ (s.finishClear a).holds = s.holds ∧ (s.finishClear a).journal =
    s.journal ∧ (s.finishClear a).apply = s.apply ∧ (s.finishClear a).mem = s.mem ∧ (s.finishClear a).out =
    s.out ∧ (s.finishClear a).freeCount = s.freeCount ∧ (s.finishClear a).pending = s.pending := by
  simp only [State.finishClear]
  (repeat' split) <;> simp

@[simp] theorem State.anchorStep_keeps (s : State) :
    s.anchorStep.run = s.run ∧ s.anchorStep.abase = s.abase ∧ s.anchorStep.now = s.now ∧ s.anchorStep.ports =
    s.ports ∧ s.anchorStep.groups = s.groups ∧ s.anchorStep.pool = s.pool ∧ s.anchorStep.index = s.index ∧
    s.anchorStep.holds = s.holds ∧ s.anchorStep.journal = s.journal ∧ s.anchorStep.apply = s.apply ∧
    s.anchorStep.mem = s.mem ∧ s.anchorStep.out = s.out ∧ s.anchorStep.freeCount = s.freeCount ∧
    s.anchorStep.pending = s.pending := by
  unfold State.anchorStep
  split <;> simp

@[simp] theorem State.startAttempt_keeps (s : State) (a : ApplyRecord) :
    (s.startAttempt a).run = s.run ∧ (s.startAttempt a).abase = s.abase ∧ (s.startAttempt a).now = s.now ∧
    (s.startAttempt a).ports = s.ports ∧ (s.startAttempt a).profile = s.profile ∧ (s.startAttempt a).groups =
    s.groups ∧ (s.startAttempt a).pool = s.pool ∧ (s.startAttempt a).index = s.index ∧ (s.startAttempt
    a).holds = s.holds ∧ (s.startAttempt a).journal = s.journal ∧ (s.startAttempt a).ckpt = s.ckpt ∧
    (s.startAttempt a).mem = s.mem ∧ (s.startAttempt a).service = s.service ∧ (s.startAttempt a).mgmt = s.mgmt
    ∧ (s.startAttempt a).out = s.out ∧ (s.startAttempt a).freeCount = s.freeCount ∧ (s.startAttempt a).pending
    = s.pending :=
  ⟨rfl, rfl, rfl, rfl, rfl, rfl, rfl, rfl, rfl, rfl, rfl, rfl, rfl, rfl, rfl, rfl, rfl⟩

@[simp] theorem State.applyStep_keeps (s : State) :
    s.applyStep.run = s.run ∧ s.applyStep.abase = s.abase ∧ s.applyStep.now = s.now ∧ s.applyStep.ports =
    s.ports ∧ s.applyStep.groups = s.groups ∧ s.applyStep.pool = s.pool ∧ s.applyStep.index = s.index ∧
    s.applyStep.holds = s.holds ∧ s.applyStep.journal = s.journal ∧ s.applyStep.mem = s.mem ∧ s.applyStep.out
    = s.out ∧ s.applyStep.freeCount = s.freeCount ∧ s.applyStep.pending = s.pending := by
  unfold State.applyStep
  (repeat' split) <;> simp

@[simp] theorem State.journalStep_keeps (s : State) :
    s.journalStep.run = s.run ∧ s.journalStep.abase = s.abase ∧ s.journalStep.now = s.now ∧
    s.journalStep.ports = s.ports ∧ s.journalStep.groups = s.groups ∧ s.journalStep.pool = s.pool ∧
    s.journalStep.index = s.index ∧ s.journalStep.holds = s.holds ∧ s.journalStep.journal = s.journal ∧
    s.journalStep.mem = s.mem ∧ s.journalStep.out = s.out ∧ s.journalStep.freeCount = s.freeCount ∧
    s.journalStep.pending = s.pending := by
  unfold State.journalStep
  (repeat' split) <;> simp

@[simp] theorem State.continueClear_keeps (s : State) :
    s.continueClear.run = s.run ∧ s.continueClear.abase = s.abase ∧ s.continueClear.now = s.now ∧
    s.continueClear.ports = s.ports ∧ s.continueClear.groups = s.groups ∧ s.continueClear.pool = s.pool ∧
    s.continueClear.index = s.index ∧ s.continueClear.holds = s.holds ∧ s.continueClear.journal = s.journal ∧
    s.continueClear.mem = s.mem ∧ s.continueClear.out = s.out ∧ s.continueClear.freeCount = s.freeCount ∧
    s.continueClear.pending = s.pending := by
  unfold State.continueClear
  (repeat' split) <;> simp

@[simp] theorem State.landed_keeps (s : State) (c : Copy) (a : Anchor) :
    (s.landed c a).run = s.run ∧ (s.landed c a).abase = s.abase ∧ (s.landed c a).now = s.now ∧ (s.landed c
    a).ports = s.ports ∧ (s.landed c a).profile = s.profile ∧ (s.landed c a).groups = s.groups ∧ (s.landed c
    a).pool = s.pool ∧ (s.landed c a).index = s.index ∧ (s.landed c a).journal = s.journal ∧ (s.landed c
    a).apply = s.apply ∧ (s.landed c a).mem = s.mem ∧ (s.landed c a).service = s.service ∧ (s.landed c
    a).engine = s.engine ∧ (s.landed c a).mgmt = s.mgmt ∧ (s.landed c a).out = s.out ∧ (s.landed c
    a).freeCount = s.freeCount ∧ (s.landed c a).pending = s.pending :=
  ⟨rfl, rfl, rfl, rfl, rfl, rfl, rfl, rfl, rfl, rfl, rfl, rfl, rfl, rfl, rfl, rfl, rfl⟩

@[simp] theorem State.enterOnSuccess_keeps (s : State) (e : EngineState) :
    (s.enterOnSuccess e).run = s.run ∧ (s.enterOnSuccess e).abase = s.abase ∧ (s.enterOnSuccess e).now = s.now
    ∧ (s.enterOnSuccess e).ports = s.ports ∧ (s.enterOnSuccess e).profile = s.profile ∧ (s.enterOnSuccess
    e).groups = s.groups ∧ (s.enterOnSuccess e).pool = s.pool ∧ (s.enterOnSuccess e).index = s.index ∧
    (s.enterOnSuccess e).holds = s.holds ∧ (s.enterOnSuccess e).journal = s.journal ∧ (s.enterOnSuccess
    e).apply = s.apply ∧ (s.enterOnSuccess e).ckpt = s.ckpt ∧ (s.enterOnSuccess e).mem = s.mem ∧
    (s.enterOnSuccess e).service = s.service ∧ (s.enterOnSuccess e).mgmt = s.mgmt ∧ (s.enterOnSuccess e).out =
    s.out ∧ (s.enterOnSuccess e).freeCount = s.freeCount ∧ (s.enterOnSuccess e).pending = s.pending := by
  unfold State.enterOnSuccess
  split <;> simp

@[simp] theorem State.announce_keeps (s : State) (e : EngineState) :
    (s.announce e).run = s.run ∧ (s.announce e).abase = s.abase ∧ (s.announce e).now = s.now ∧ (s.announce
    e).ports = s.ports ∧ (s.announce e).profile = s.profile ∧ (s.announce e).groups = s.groups ∧ (s.announce
    e).pool = s.pool ∧ (s.announce e).index = s.index ∧ (s.announce e).holds = s.holds ∧ (s.announce
    e).journal = s.journal ∧ (s.announce e).apply = s.apply ∧ (s.announce e).ckpt = s.ckpt ∧ (s.announce
    e).mem = s.mem ∧ (s.announce e).service = s.service ∧ (s.announce e).engine = s.engine ∧ (s.announce
    e).out = s.out ∧ (s.announce e).freeCount = s.freeCount ∧ (s.announce e).pending = s.pending := by
  unfold State.announce
  split <;> simp

@[simp] theorem State.answerRequest_keeps (s : State) (r : CheckpointRequest) :
    (s.answerRequest r).run = s.run ∧ (s.answerRequest r).abase = s.abase ∧ (s.answerRequest r).now = s.now ∧
    (s.answerRequest r).ports = s.ports ∧ (s.answerRequest r).groups = s.groups ∧ (s.answerRequest r).pool =
    s.pool ∧ (s.answerRequest r).index = s.index ∧ (s.answerRequest r).journal = s.journal ∧ (s.answerRequest
    r).apply = s.apply ∧ (s.answerRequest r).ckpt = s.ckpt ∧ (s.answerRequest r).mem = s.mem ∧
    (s.answerRequest r).out = s.out ∧ (s.answerRequest r).freeCount = s.freeCount ∧ (s.answerRequest
    r).pending = s.pending := by
  cases r <;> simp [State.answerRequest]

@[simp] theorem State.clearBlocks_keeps (s : State) :
    s.clearBlocks.run = s.run ∧ s.clearBlocks.abase = s.abase ∧ s.clearBlocks.now = s.now ∧
    s.clearBlocks.ports = s.ports ∧ s.clearBlocks.profile = s.profile ∧ s.clearBlocks.engine = s.engine ∧
    s.clearBlocks.mgmt = s.mgmt ∧ s.clearBlocks.out = s.out ∧ s.clearBlocks.freeCount = s.freeCount ∧
    s.clearBlocks.pending = s.pending :=
  ⟨rfl, rfl, rfl, rfl, rfl, rfl, rfl, rfl, rfl, rfl⟩

@[simp] theorem State.restartClearing_keeps (s : State) :
    s.restartClearing.run = s.run ∧ s.restartClearing.abase = s.abase ∧ s.restartClearing.now = s.now ∧
    s.restartClearing.ports = s.ports ∧ s.restartClearing.profile = s.profile ∧ s.restartClearing.engine =
    s.engine ∧ s.restartClearing.mgmt = s.mgmt ∧ s.restartClearing.out = s.out ∧ s.restartClearing.freeCount =
    s.freeCount ∧ s.restartClearing.pending = s.pending :=
  ⟨rfl, rfl, rfl, rfl, rfl, rfl, rfl, rfl, rfl, rfl⟩

@[simp] theorem State.beginFormat_keeps (s : State) (w : FormatWork) :
    (s.beginFormat w).run = s.run ∧ (s.beginFormat w).abase = s.abase ∧ (s.beginFormat w).now = s.now ∧
    (s.beginFormat w).ports = s.ports ∧ (s.beginFormat w).profile = s.profile ∧ (s.beginFormat w).groups =
    s.groups ∧ (s.beginFormat w).pool = s.pool ∧ (s.beginFormat w).index = s.index ∧ (s.beginFormat w).holds =
    s.holds ∧ (s.beginFormat w).journal = s.journal ∧ (s.beginFormat w).apply = s.apply ∧ (s.beginFormat
    w).ckpt = s.ckpt ∧ (s.beginFormat w).mem = s.mem ∧ (s.beginFormat w).mgmt = s.mgmt ∧ (s.beginFormat w).out
    = s.out ∧ (s.beginFormat w).freeCount = s.freeCount ∧ (s.beginFormat w).pending = s.pending :=
  ⟨rfl, rfl, rfl, rfl, rfl, rfl, rfl, rfl, rfl, rfl, rfl, rfl, rfl, rfl, rfl, rfl, rfl⟩

@[simp] theorem State.formatClearing_keeps (s : State) (w : FormatWork) :
    (s.formatClearing w).run = s.run ∧ (s.formatClearing w).abase = s.abase ∧ (s.formatClearing w).now = s.now
    ∧ (s.formatClearing w).ports = s.ports ∧ (s.formatClearing w).profile = s.profile ∧ (s.formatClearing
    w).out = s.out ∧ (s.formatClearing w).freeCount = s.freeCount ∧ (s.formatClearing w).pending = s.pending := by
  simp only [State.formatClearing]
  split <;> simp

/-- The clearing of FORMAT leaves the retired-through number and the durable tail 0 (R135, R171). -/
@[simp] theorem State.formatClearing_ckpt_zero (s : State) (w : FormatWork) :
    (s.formatClearing w).ckpt.retiredThrough = 0 ∧ (s.formatClearing w).ckpt.durableTail = 0 := by
  simp only [State.formatClearing]
  split <;> simp [State.clearBlocks]

@[simp] theorem State.drainCheck_keeps (s : State) :
    s.drainCheck.run = s.run ∧ s.drainCheck.abase = s.abase ∧ s.drainCheck.now = s.now ∧ s.drainCheck.ports =
    s.ports ∧ s.drainCheck.profile = s.profile ∧ s.drainCheck.out = s.out ∧ s.drainCheck.freeCount =
    s.freeCount ∧ s.drainCheck.pending = s.pending := by
  unfold State.drainCheck
  (repeat' split) <;> simp

@[simp] theorem State.beginDrain_keeps (s : State) :
    s.beginDrain.run = s.run ∧ s.beginDrain.abase = s.abase ∧ s.beginDrain.now = s.now ∧ s.beginDrain.ports =
    s.ports ∧ s.beginDrain.profile = s.profile ∧ s.beginDrain.out = s.out ∧ s.beginDrain.freeCount =
    s.freeCount ∧ s.beginDrain.pending = s.pending := by
  simp [State.beginDrain]

@[simp] theorem State.issueRecord_keeps (s : State) :
    s.issueRecord.run = s.run ∧ s.issueRecord.abase = s.abase ∧ s.issueRecord.now = s.now ∧
    s.issueRecord.ports = s.ports ∧ s.issueRecord.profile = s.profile ∧ s.issueRecord.pool = s.pool ∧
    s.issueRecord.index = s.index ∧ s.issueRecord.apply = s.apply ∧ s.issueRecord.service = s.service ∧
    s.issueRecord.engine = s.engine ∧ s.issueRecord.mgmt = s.mgmt ∧ s.issueRecord.freeCount = s.freeCount ∧
    s.issueRecord.pending = s.pending := by
  unfold State.issueRecord
  split <;> simp

@[simp] theorem State.issueRewrite_keeps (s : State) :
    s.issueRewrite.run = s.run ∧ s.issueRewrite.abase = s.abase ∧ s.issueRewrite.now = s.now ∧
    s.issueRewrite.ports = s.ports ∧ s.issueRewrite.profile = s.profile ∧ s.issueRewrite.groups = s.groups ∧
    s.issueRewrite.pool = s.pool ∧ s.issueRewrite.index = s.index ∧ s.issueRewrite.holds = s.holds ∧
    s.issueRewrite.journal = s.journal ∧ s.issueRewrite.apply = s.apply ∧ s.issueRewrite.ckpt = s.ckpt ∧
    s.issueRewrite.service = s.service ∧ s.issueRewrite.mgmt = s.mgmt ∧ s.issueRewrite.freeCount = s.freeCount
    ∧ s.issueRewrite.pending = s.pending := by
  unfold State.issueRewrite
  split <;> simp

@[simp] theorem State.issueHomeWrite_keeps (s : State) :
    s.issueHomeWrite.run = s.run ∧ s.issueHomeWrite.abase = s.abase ∧ s.issueHomeWrite.now = s.now ∧
    s.issueHomeWrite.ports = s.ports ∧ s.issueHomeWrite.profile = s.profile ∧ s.issueHomeWrite.groups =
    s.groups ∧ s.issueHomeWrite.pool = s.pool ∧ s.issueHomeWrite.index = s.index ∧ s.issueHomeWrite.holds =
    s.holds ∧ s.issueHomeWrite.journal = s.journal ∧ s.issueHomeWrite.ckpt = s.ckpt ∧ s.issueHomeWrite.service
    = s.service ∧ s.issueHomeWrite.engine = s.engine ∧ s.issueHomeWrite.mgmt = s.mgmt ∧
    s.issueHomeWrite.freeCount = s.freeCount ∧ s.issueHomeWrite.pending = s.pending := by
  unfold State.issueHomeWrite
  (repeat' split) <;> simp

@[simp] theorem State.capture_keeps (s : State) (st : Stream) (i : Fin 4) :
    (s.capture st i).run = s.run ∧ (s.capture st i).abase = s.abase ∧ (s.capture st i).now = s.now ∧
    (s.capture st i).profile = s.profile ∧ (s.capture st i).groups = s.groups ∧ (s.capture st i).pool = s.pool
    ∧ (s.capture st i).index = s.index ∧ (s.capture st i).holds = s.holds ∧ (s.capture st i).journal =
    s.journal ∧ (s.capture st i).apply = s.apply ∧ (s.capture st i).ckpt = s.ckpt ∧ (s.capture st i).mem =
    s.mem ∧ (s.capture st i).service = s.service ∧ (s.capture st i).engine = s.engine ∧ (s.capture st i).mgmt
    = s.mgmt ∧ (s.capture st i).out = s.out ∧ (s.capture st i).freeCount = s.freeCount ∧ (s.capture st
    i).pending = s.pending :=
  ⟨rfl, rfl, rfl, rfl, rfl, rfl, rfl, rfl, rfl, rfl, rfl, rfl, rfl, rfl, rfl, rfl, rfl, rfl⟩

@[simp] theorem State.issuePath_keeps (s : State) :
    s.issuePath.run = s.run ∧ s.issuePath.abase = s.abase ∧ s.issuePath.now = s.now ∧ s.issuePath.profile =
    s.profile ∧ s.issuePath.groups = s.groups ∧ s.issuePath.pool = s.pool ∧ s.issuePath.index = s.index ∧
    s.issuePath.holds = s.holds ∧ s.issuePath.journal = s.journal ∧ s.issuePath.apply = s.apply ∧
    s.issuePath.ckpt = s.ckpt ∧ s.issuePath.service = s.service ∧ s.issuePath.engine = s.engine ∧
    s.issuePath.mgmt = s.mgmt ∧ s.issuePath.freeCount = s.freeCount ∧ s.issuePath.pending = s.pending := by
  unfold State.issuePath
  (repeat' split) <;> simp

@[simp] theorem State.issueCheckpoint_keeps (s : State) :
    s.issueCheckpoint.run = s.run ∧ s.issueCheckpoint.abase = s.abase ∧ s.issueCheckpoint.now = s.now ∧
    s.issueCheckpoint.ports = s.ports ∧ s.issueCheckpoint.profile = s.profile ∧ s.issueCheckpoint.groups =
    s.groups ∧ s.issueCheckpoint.pool = s.pool ∧ s.issueCheckpoint.index = s.index ∧ s.issueCheckpoint.holds =
    s.holds ∧ s.issueCheckpoint.journal = s.journal ∧ s.issueCheckpoint.apply = s.apply ∧
    s.issueCheckpoint.service = s.service ∧ s.issueCheckpoint.engine = s.engine ∧ s.issueCheckpoint.mgmt =
    s.mgmt ∧ s.issueCheckpoint.freeCount = s.freeCount ∧ s.issueCheckpoint.pending = s.pending :=
  ⟨rfl, rfl, rfl, rfl, rfl, rfl, rfl, rfl, rfl, rfl, rfl, rfl, rfl, rfl, rfl, rfl⟩

@[simp] theorem State.issueSecondHalf_keeps (s : State) :
    s.issueSecondHalf.run = s.run ∧ s.issueSecondHalf.abase = s.abase ∧ s.issueSecondHalf.now = s.now ∧
    s.issueSecondHalf.ports = s.ports ∧ s.issueSecondHalf.profile = s.profile ∧ s.issueSecondHalf.groups =
    s.groups ∧ s.issueSecondHalf.pool = s.pool ∧ s.issueSecondHalf.index = s.index ∧ s.issueSecondHalf.holds =
    s.holds ∧ s.issueSecondHalf.journal = s.journal ∧ s.issueSecondHalf.apply = s.apply ∧
    s.issueSecondHalf.service = s.service ∧ s.issueSecondHalf.engine = s.engine ∧ s.issueSecondHalf.mgmt =
    s.mgmt ∧ s.issueSecondHalf.freeCount = s.freeCount ∧ s.issueSecondHalf.pending = s.pending := by
  unfold State.issueSecondHalf
  split <;> simp

@[simp] theorem State.issueRewriteHalf_keeps (s : State) (b : Bool) :
    (s.issueRewriteHalf b).run = s.run ∧ (s.issueRewriteHalf b).abase = s.abase ∧ (s.issueRewriteHalf b).now =
    s.now ∧ (s.issueRewriteHalf b).ports = s.ports ∧ (s.issueRewriteHalf b).profile = s.profile ∧
    (s.issueRewriteHalf b).groups = s.groups ∧ (s.issueRewriteHalf b).pool = s.pool ∧ (s.issueRewriteHalf
    b).index = s.index ∧ (s.issueRewriteHalf b).holds = s.holds ∧ (s.issueRewriteHalf b).journal = s.journal ∧
    (s.issueRewriteHalf b).apply = s.apply ∧ (s.issueRewriteHalf b).service = s.service ∧ (s.issueRewriteHalf
    b).engine = s.engine ∧ (s.issueRewriteHalf b).mgmt = s.mgmt ∧ (s.issueRewriteHalf b).freeCount =
    s.freeCount ∧ (s.issueRewriteHalf b).pending = s.pending := by
  unfold State.issueRewriteHalf
  split <;> simp

@[simp] theorem State.issueTurn_keeps (s : State) (t : CheckpointTurn) :
    (s.issueTurn t).run = s.run ∧ (s.issueTurn t).abase = s.abase ∧ (s.issueTurn t).now = s.now ∧ (s.issueTurn
    t).ports = s.ports ∧ (s.issueTurn t).profile = s.profile ∧ (s.issueTurn t).groups = s.groups ∧
    (s.issueTurn t).pool = s.pool ∧ (s.issueTurn t).index = s.index ∧ (s.issueTurn t).holds = s.holds ∧
    (s.issueTurn t).journal = s.journal ∧ (s.issueTurn t).apply = s.apply ∧ (s.issueTurn t).service =
    s.service ∧ (s.issueTurn t).engine = s.engine ∧ (s.issueTurn t).mgmt = s.mgmt ∧ (s.issueTurn t).freeCount
    = s.freeCount ∧ (s.issueTurn t).pending = s.pending := by
  cases t <;> simp [State.issueTurn]

@[simp] theorem State.issueRecovery_keeps (s : State) (x : Purpose × MemRequest) :
    (s.issueRecovery x).run = s.run ∧ (s.issueRecovery x).abase = s.abase ∧ (s.issueRecovery x).now = s.now ∧
    (s.issueRecovery x).ports = s.ports ∧ (s.issueRecovery x).profile = s.profile ∧ (s.issueRecovery x).groups
    = s.groups ∧ (s.issueRecovery x).pool = s.pool ∧ (s.issueRecovery x).index = s.index ∧ (s.issueRecovery
    x).holds = s.holds ∧ (s.issueRecovery x).journal = s.journal ∧ (s.issueRecovery x).apply = s.apply ∧
    (s.issueRecovery x).ckpt = s.ckpt ∧ (s.issueRecovery x).engine = s.engine ∧ (s.issueRecovery x).mgmt =
    s.mgmt ∧ (s.issueRecovery x).freeCount = s.freeCount ∧ (s.issueRecovery x).pending = s.pending := by
  unfold State.issueRecovery
  split <;> simp

@[simp] theorem State.issueFormat_keeps (s : State) (x : Purpose × MemRequest) :
    (s.issueFormat x).run = s.run ∧ (s.issueFormat x).abase = s.abase ∧ (s.issueFormat x).now = s.now ∧
    (s.issueFormat x).ports = s.ports ∧ (s.issueFormat x).profile = s.profile ∧ (s.issueFormat x).groups =
    s.groups ∧ (s.issueFormat x).pool = s.pool ∧ (s.issueFormat x).index = s.index ∧ (s.issueFormat x).holds =
    s.holds ∧ (s.issueFormat x).journal = s.journal ∧ (s.issueFormat x).apply = s.apply ∧ (s.issueFormat
    x).ckpt = s.ckpt ∧ (s.issueFormat x).engine = s.engine ∧ (s.issueFormat x).mgmt = s.mgmt ∧ (s.issueFormat
    x).freeCount = s.freeCount ∧ (s.issueFormat x).pending = s.pending :=
  ⟨rfl, rfl, rfl, rfl, rfl, rfl, rfl, rfl, rfl, rfl, rfl, rfl, rfl, rfl, rfl, rfl⟩

@[simp] theorem State.issueDigest_keeps (s : State) (x : Purpose × MemRequest) :
    (s.issueDigest x).run = s.run ∧ (s.issueDigest x).abase = s.abase ∧ (s.issueDigest x).now = s.now ∧
    (s.issueDigest x).ports = s.ports ∧ (s.issueDigest x).profile = s.profile ∧ (s.issueDigest x).groups =
    s.groups ∧ (s.issueDigest x).pool = s.pool ∧ (s.issueDigest x).index = s.index ∧ (s.issueDigest x).holds =
    s.holds ∧ (s.issueDigest x).journal = s.journal ∧ (s.issueDigest x).apply = s.apply ∧ (s.issueDigest
    x).ckpt = s.ckpt ∧ (s.issueDigest x).engine = s.engine ∧ (s.issueDigest x).mgmt = s.mgmt ∧ (s.issueDigest
    x).freeCount = s.freeCount ∧ (s.issueDigest x).pending = s.pending :=
  ⟨rfl, rfl, rfl, rfl, rfl, rfl, rfl, rfl, rfl, rfl, rfl, rfl, rfl, rfl, rfl, rfl⟩

@[simp] theorem State.issueWork_keeps (s : State) (w : ServiceWork) :
    (s.issueWork w).run = s.run ∧ (s.issueWork w).abase = s.abase ∧ (s.issueWork w).now = s.now ∧ (s.issueWork
    w).ports = s.ports ∧ (s.issueWork w).profile = s.profile ∧ (s.issueWork w).groups = s.groups ∧
    (s.issueWork w).pool = s.pool ∧ (s.issueWork w).index = s.index ∧ (s.issueWork w).holds = s.holds ∧
    (s.issueWork w).journal = s.journal ∧ (s.issueWork w).apply = s.apply ∧ (s.issueWork w).engine = s.engine
    ∧ (s.issueWork w).mgmt = s.mgmt ∧ (s.issueWork w).freeCount = s.freeCount ∧ (s.issueWork w).pending =
    s.pending := by
  cases w
  · cases h : s.checkpointTurn <;> simp [State.issueWork, h]
  · cases h : s.recoveryRequest <;> simp [State.issueWork, h]
  · cases h : s.formatRequest <;> simp [State.issueWork, h]
  · cases h : s.digestRequest <;> simp [State.issueWork, h]

@[simp] theorem State.grantTo_keeps (s : State) (r : Requester) :
    (s.grantTo r).run = s.run ∧ (s.grantTo r).abase = s.abase ∧ (s.grantTo r).now = s.now ∧ (s.grantTo
    r).profile = s.profile ∧ (s.grantTo r).pool = s.pool ∧ (s.grantTo r).index = s.index ∧ (s.grantTo r).mgmt
    = s.mgmt ∧ (s.grantTo r).freeCount = s.freeCount ∧ (s.grantTo r).pending = s.pending := by
  cases r
  · simp only [State.grantTo]; split <;> simp
  · simp [State.grantTo]
  · simp [State.grantTo]
  · cases h : s.presentedWork <;> simp [State.grantTo, h]

@[simp] theorem State.movePointer_keeps (s : State) (r : Requester) (b : Bool) :
    (s.movePointer r b).run = s.run ∧ (s.movePointer r b).abase = s.abase ∧ (s.movePointer r b).now = s.now ∧
    (s.movePointer r b).ports = s.ports ∧ (s.movePointer r b).profile = s.profile ∧ (s.movePointer r b).groups
    = s.groups ∧ (s.movePointer r b).pool = s.pool ∧ (s.movePointer r b).index = s.index ∧ (s.movePointer r
    b).holds = s.holds ∧ (s.movePointer r b).journal = s.journal ∧ (s.movePointer r b).apply = s.apply ∧
    (s.movePointer r b).ckpt = s.ckpt ∧ (s.movePointer r b).service = s.service ∧ (s.movePointer r b).engine =
    s.engine ∧ (s.movePointer r b).mgmt = s.mgmt ∧ (s.movePointer r b).out = s.out ∧ (s.movePointer r
    b).freeCount = s.freeCount ∧ (s.movePointer r b).pending = s.pending := by
  unfold State.movePointer
  split <;> simp

@[simp] theorem State.grant_keeps (s : State) :
    s.grant.run = s.run ∧ s.grant.abase = s.abase ∧ s.grant.now = s.now ∧ s.grant.profile = s.profile ∧
    s.grant.pool = s.pool ∧ s.grant.index = s.index ∧ s.grant.mgmt = s.mgmt ∧ s.grant.freeCount = s.freeCount
    ∧ s.grant.pending = s.pending := by
  unfold State.grant
  split <;> simp

@[simp] theorem State.recordDurable_keeps (s : State) (r : IssuedRecord) :
    (s.recordDurable r).run = s.run ∧ (s.recordDurable r).abase = s.abase ∧ (s.recordDurable r).now = s.now ∧
    (s.recordDurable r).profile = s.profile ∧ (s.recordDurable r).pool = s.pool ∧ (s.recordDurable r).journal
    = s.journal ∧ (s.recordDurable r).apply = s.apply ∧ (s.recordDurable r).ckpt = s.ckpt ∧ (s.recordDurable
    r).mem = s.mem ∧ (s.recordDurable r).service = s.service ∧ (s.recordDurable r).engine = s.engine ∧
    (s.recordDurable r).out = s.out ∧ (s.recordDurable r).freeCount = s.freeCount ∧ (s.recordDurable
    r).pending = s.pending := by
  unfold State.recordDurable
  split <;> simp

@[simp] theorem State.recordOk_keeps (s : State) :
    s.recordOk.run = s.run ∧ s.recordOk.abase = s.abase ∧ s.recordOk.now = s.now ∧ s.recordOk.pool = s.pool ∧
    s.recordOk.mem = s.mem ∧ s.recordOk.out = s.out ∧ s.recordOk.freeCount = s.freeCount ∧ s.recordOk.pending
    = s.pending := by
  unfold State.recordOk
  split <;> simp

@[simp] theorem State.recordFailed_keeps (s : State) :
    s.recordFailed.run = s.run ∧ s.recordFailed.abase = s.abase ∧ s.recordFailed.now = s.now ∧
    s.recordFailed.profile = s.profile ∧ s.recordFailed.pool = s.pool ∧ s.recordFailed.index = s.index ∧
    s.recordFailed.apply = s.apply ∧ s.recordFailed.mem = s.mem ∧ s.recordFailed.service = s.service ∧
    s.recordFailed.out = s.out ∧ s.recordFailed.freeCount = s.freeCount ∧ s.recordFailed.pending = s.pending := by
  unfold State.recordFailed
  (repeat' split) <;> simp

@[simp] theorem State.rewriteDone_keeps (s : State) (st : MemStatus) :
    (s.rewriteDone st).run = s.run ∧ (s.rewriteDone st).abase = s.abase ∧ (s.rewriteDone st).now = s.now ∧
    (s.rewriteDone st).pool = s.pool ∧ (s.rewriteDone st).mem = s.mem ∧ (s.rewriteDone st).out = s.out ∧
    (s.rewriteDone st).freeCount = s.freeCount ∧ (s.rewriteDone st).pending = s.pending := by
  unfold State.rewriteDone
  split
  · simp
  · dsimp only; split <;> simp
  · split <;> simp

@[simp] theorem State.startApply_keeps (s : State) :
    s.startApply.run = s.run ∧ s.startApply.abase = s.abase ∧ s.startApply.now = s.now ∧ s.startApply.ports =
    s.ports ∧ s.startApply.profile = s.profile ∧ s.startApply.pool = s.pool ∧ s.startApply.index = s.index ∧
    s.startApply.holds = s.holds ∧ s.startApply.journal = s.journal ∧ s.startApply.ckpt = s.ckpt ∧
    s.startApply.mem = s.mem ∧ s.startApply.service = s.service ∧ s.startApply.engine = s.engine ∧
    s.startApply.mgmt = s.mgmt ∧ s.startApply.out = s.out ∧ s.startApply.freeCount = s.freeCount ∧
    s.startApply.pending = s.pending := by
  unfold State.startApply
  split <;> simp

@[simp] theorem State.homeWriteOk_keeps (s : State) :
    s.homeWriteOk.run = s.run ∧ s.homeWriteOk.abase = s.abase ∧ s.homeWriteOk.now = s.now ∧
    s.homeWriteOk.ports = s.ports ∧ s.homeWriteOk.mem = s.mem ∧ s.homeWriteOk.out = s.out ∧
    s.homeWriteOk.freeCount = s.freeCount ∧ s.homeWriteOk.pending = s.pending := by
  simp only [State.homeWriteOk]
  (repeat' split) <;> simp

@[simp] theorem State.homeWriteFailed_keeps (s : State) :
    s.homeWriteFailed.run = s.run ∧ s.homeWriteFailed.abase = s.abase ∧ s.homeWriteFailed.now = s.now ∧
    s.homeWriteFailed.groups = s.groups ∧ s.homeWriteFailed.pool = s.pool ∧ s.homeWriteFailed.index = s.index
    ∧ s.homeWriteFailed.journal = s.journal ∧ s.homeWriteFailed.mem = s.mem ∧ s.homeWriteFailed.out = s.out ∧
    s.homeWriteFailed.freeCount = s.freeCount ∧ s.homeWriteFailed.pending = s.pending := by
  simp only [State.homeWriteFailed]
  (repeat' split) <;> simp

@[simp] theorem State.firstHalfDone_keeps (s : State) (b : Bool) (st : MemStatus) :
    (s.firstHalfDone b st).run = s.run ∧ (s.firstHalfDone b st).abase = s.abase ∧ (s.firstHalfDone b st).now =
    s.now ∧ (s.firstHalfDone b st).ports = s.ports ∧ (s.firstHalfDone b st).profile = s.profile ∧
    (s.firstHalfDone b st).groups = s.groups ∧ (s.firstHalfDone b st).pool = s.pool ∧ (s.firstHalfDone b
    st).index = s.index ∧ (s.firstHalfDone b st).holds = s.holds ∧ (s.firstHalfDone b st).journal = s.journal
    ∧ (s.firstHalfDone b st).apply = s.apply ∧ (s.firstHalfDone b st).mem = s.mem ∧ (s.firstHalfDone b
    st).service = s.service ∧ (s.firstHalfDone b st).out = s.out ∧ (s.firstHalfDone b st).freeCount =
    s.freeCount ∧ (s.firstHalfDone b st).pending = s.pending := by
  unfold State.firstHalfDone
  (repeat' split) <;> simp

@[simp] theorem State.checkpointOk_keeps (s : State) :
    s.checkpointOk.run = s.run ∧ s.checkpointOk.abase = s.abase ∧ s.checkpointOk.now = s.now ∧
    s.checkpointOk.ports = s.ports ∧ s.checkpointOk.groups = s.groups ∧ s.checkpointOk.pool = s.pool ∧
    s.checkpointOk.index = s.index ∧ s.checkpointOk.journal = s.journal ∧ s.checkpointOk.apply = s.apply ∧
    s.checkpointOk.mem = s.mem ∧ s.checkpointOk.out = s.out ∧ s.checkpointOk.freeCount = s.freeCount ∧
    s.checkpointOk.pending = s.pending := by
  unfold State.checkpointOk
  split
  · simp
  · rename_i f _; cases f.answers <;> simp

@[simp] theorem State.rewriteOk_keeps (s : State) :
    s.rewriteOk.run = s.run ∧ s.rewriteOk.abase = s.abase ∧ s.rewriteOk.now = s.now ∧ s.rewriteOk.ports =
    s.ports ∧ s.rewriteOk.groups = s.groups ∧ s.rewriteOk.pool = s.pool ∧ s.rewriteOk.index = s.index ∧
    s.rewriteOk.journal = s.journal ∧ s.rewriteOk.apply = s.apply ∧ s.rewriteOk.mem = s.mem ∧ s.rewriteOk.out
    = s.out ∧ s.rewriteOk.freeCount = s.freeCount ∧ s.rewriteOk.pending = s.pending := by
  unfold State.rewriteOk
  split
  · simp
  · rename_i r _; dsimp only; split
    · simp
    · cases r.answers <;> simp

@[simp] theorem State.checkpointFailed_keeps (s : State) :
    s.checkpointFailed.run = s.run ∧ s.checkpointFailed.abase = s.abase ∧ s.checkpointFailed.now = s.now ∧
    s.checkpointFailed.profile = s.profile ∧ s.checkpointFailed.groups = s.groups ∧ s.checkpointFailed.pool =
    s.pool ∧ s.checkpointFailed.index = s.index ∧ s.checkpointFailed.journal = s.journal ∧
    s.checkpointFailed.apply = s.apply ∧ s.checkpointFailed.mem = s.mem ∧ s.checkpointFailed.service =
    s.service ∧ s.checkpointFailed.out = s.out ∧ s.checkpointFailed.freeCount = s.freeCount ∧
    s.checkpointFailed.pending = s.pending := by
  unfold State.checkpointFailed
  split <;> simp

@[simp] theorem State.rewriteFailed_keeps (s : State) :
    s.rewriteFailed.run = s.run ∧ s.rewriteFailed.abase = s.abase ∧ s.rewriteFailed.now = s.now ∧
    s.rewriteFailed.ports = s.ports ∧ s.rewriteFailed.profile = s.profile ∧ s.rewriteFailed.groups = s.groups
    ∧ s.rewriteFailed.pool = s.pool ∧ s.rewriteFailed.index = s.index ∧ s.rewriteFailed.holds = s.holds ∧
    s.rewriteFailed.journal = s.journal ∧ s.rewriteFailed.apply = s.apply ∧ s.rewriteFailed.mem = s.mem ∧
    s.rewriteFailed.service = s.service ∧ s.rewriteFailed.out = s.out ∧ s.rewriteFailed.freeCount =
    s.freeCount ∧ s.rewriteFailed.pending = s.pending := by
  simp only [State.rewriteFailed]
  split <;> simp

@[simp] theorem State.memoryError_keeps (s : State) (st : Stream) (i : Fin 4) :
    (s.memoryError st i).run = s.run ∧ (s.memoryError st i).abase = s.abase ∧ (s.memoryError st i).now = s.now
    ∧ (s.memoryError st i).profile = s.profile ∧ (s.memoryError st i).groups = s.groups ∧ (s.memoryError st
    i).pool = s.pool ∧ (s.memoryError st i).index = s.index ∧ (s.memoryError st i).holds = s.holds ∧
    (s.memoryError st i).journal = s.journal ∧ (s.memoryError st i).apply = s.apply ∧ (s.memoryError st
    i).ckpt = s.ckpt ∧ (s.memoryError st i).mem = s.mem ∧ (s.memoryError st i).service = s.service ∧
    (s.memoryError st i).engine = s.engine ∧ (s.memoryError st i).out = s.out ∧ (s.memoryError st i).freeCount
    = s.freeCount ∧ (s.memoryError st i).pending = s.pending := by
  unfold State.memoryError
  split <;> simp

@[simp] theorem State.passDone_keeps (s : State) (c : Completion) (p : Purpose) :
    (s.passDone c p).run = s.run ∧ (s.passDone c p).abase = s.abase ∧ (s.passDone c p).now = s.now ∧
    (s.passDone c p).profile = s.profile ∧ (s.passDone c p).groups = s.groups ∧ (s.passDone c p).pool = s.pool
    ∧ (s.passDone c p).index = s.index ∧ (s.passDone c p).holds = s.holds ∧ (s.passDone c p).journal =
    s.journal ∧ (s.passDone c p).apply = s.apply ∧ (s.passDone c p).ckpt = s.ckpt ∧ (s.passDone c p).mem =
    s.mem ∧ (s.passDone c p).service = s.service ∧ (s.passDone c p).engine = s.engine ∧ (s.passDone c p).out =
    s.out ∧ (s.passDone c p).freeCount = s.freeCount ∧ (s.passDone c p).pending = s.pending := by
  unfold State.passDone
  (repeat' split) <;> simp

@[simp] theorem State.homeReadDone_keeps (s : State) (c : Completion) (p : Purpose) :
    (s.homeReadDone c p).run = s.run ∧ (s.homeReadDone c p).abase = s.abase ∧ (s.homeReadDone c p).now = s.now
    ∧ (s.homeReadDone c p).profile = s.profile ∧ (s.homeReadDone c p).groups = s.groups ∧ (s.homeReadDone c
    p).pool = s.pool ∧ (s.homeReadDone c p).index = s.index ∧ (s.homeReadDone c p).holds = s.holds ∧
    (s.homeReadDone c p).journal = s.journal ∧ (s.homeReadDone c p).apply = s.apply ∧ (s.homeReadDone c
    p).ckpt = s.ckpt ∧ (s.homeReadDone c p).mem = s.mem ∧ (s.homeReadDone c p).service = s.service ∧
    (s.homeReadDone c p).engine = s.engine ∧ (s.homeReadDone c p).out = s.out ∧ (s.homeReadDone c p).freeCount
    = s.freeCount ∧ (s.homeReadDone c p).pending = s.pending := by
  unfold State.homeReadDone
  (repeat' split) <;> simp

@[simp] theorem State.withRecovery_keeps (s : State) (f : Recovery → Recovery) :
    (s.withRecovery f).run = s.run ∧ (s.withRecovery f).abase = s.abase ∧ (s.withRecovery f).now = s.now ∧
    (s.withRecovery f).ports = s.ports ∧ (s.withRecovery f).profile = s.profile ∧ (s.withRecovery f).groups =
    s.groups ∧ (s.withRecovery f).pool = s.pool ∧ (s.withRecovery f).index = s.index ∧ (s.withRecovery
    f).holds = s.holds ∧ (s.withRecovery f).journal = s.journal ∧ (s.withRecovery f).apply = s.apply ∧
    (s.withRecovery f).ckpt = s.ckpt ∧ (s.withRecovery f).mem = s.mem ∧ (s.withRecovery f).engine = s.engine ∧
    (s.withRecovery f).mgmt = s.mgmt ∧ (s.withRecovery f).out = s.out ∧ (s.withRecovery f).freeCount =
    s.freeCount ∧ (s.withRecovery f).pending = s.pending :=
  ⟨rfl, rfl, rfl, rfl, rfl, rfl, rfl, rfl, rfl, rfl, rfl, rfl, rfl, rfl, rfl, rfl, rfl, rfl⟩

@[simp] theorem State.recoveryFault_keeps (s : State) (c : FaultCause) :
    (s.recoveryFault c).run = s.run ∧ (s.recoveryFault c).abase = s.abase ∧ (s.recoveryFault c).now = s.now ∧
    (s.recoveryFault c).profile = s.profile ∧ (s.recoveryFault c).groups = s.groups ∧ (s.recoveryFault c).pool
    = s.pool ∧ (s.recoveryFault c).index = s.index ∧ (s.recoveryFault c).journal = s.journal ∧
    (s.recoveryFault c).apply = s.apply ∧ (s.recoveryFault c).service = s.service ∧ (s.recoveryFault c).out =
    s.out ∧ (s.recoveryFault c).freeCount = s.freeCount ∧ (s.recoveryFault c).pending = s.pending := by
  simp [State.recoveryFault]

@[simp] theorem State.noAnchor_keeps (s : State) :
    s.noAnchor.run = s.run ∧ s.noAnchor.abase = s.abase ∧ s.noAnchor.now = s.now ∧ s.noAnchor.ports = s.ports
    ∧ s.noAnchor.groups = s.groups ∧ s.noAnchor.pool = s.pool ∧ s.noAnchor.index = s.index ∧ s.noAnchor.holds
    = s.holds ∧ s.noAnchor.apply = s.apply ∧ s.noAnchor.mem = s.mem ∧ s.noAnchor.out = s.out ∧
    s.noAnchor.freeCount = s.freeCount ∧ s.noAnchor.pending = s.pending := by
  simp [State.noAnchor]

@[simp] theorem State.loadAnchor_keeps (s : State) (c : Copy) (a : Anchor) :
    (s.loadAnchor c a).run = s.run ∧ (s.loadAnchor c a).abase = s.abase ∧ (s.loadAnchor c a).now = s.now ∧
    (s.loadAnchor c a).ports = s.ports ∧ (s.loadAnchor c a).pool = s.pool ∧ (s.loadAnchor c a).index = s.index
    ∧ (s.loadAnchor c a).holds = s.holds ∧ (s.loadAnchor c a).apply = s.apply ∧ (s.loadAnchor c a).mem = s.mem
    ∧ (s.loadAnchor c a).engine = s.engine ∧ (s.loadAnchor c a).mgmt = s.mgmt ∧ (s.loadAnchor c a).out = s.out
    ∧ (s.loadAnchor c a).freeCount = s.freeCount ∧ (s.loadAnchor c a).pending = s.pending :=
  ⟨rfl, rfl, rfl, rfl, rfl, rfl, rfl, rfl, rfl, rfl, rfl, rfl, rfl, rfl⟩

@[simp] theorem State.chooseAnchors_keeps (s : State) :
    s.chooseAnchors.run = s.run ∧ s.chooseAnchors.abase = s.abase ∧ s.chooseAnchors.now = s.now ∧
    s.chooseAnchors.ports = s.ports ∧ s.chooseAnchors.pool = s.pool ∧ s.chooseAnchors.index = s.index ∧
    s.chooseAnchors.holds = s.holds ∧ s.chooseAnchors.apply = s.apply ∧ s.chooseAnchors.mem = s.mem ∧
    s.chooseAnchors.out = s.out ∧ s.chooseAnchors.freeCount = s.freeCount ∧ s.chooseAnchors.pending =
    s.pending := by
  unfold State.chooseAnchors
  (repeat' split) <;> simp

@[simp] theorem State.anchorReadDone_keeps (s : State) (c : Completion) :
    (s.anchorReadDone c).run = s.run ∧ (s.anchorReadDone c).abase = s.abase ∧ (s.anchorReadDone c).now = s.now
    ∧ (s.anchorReadDone c).pool = s.pool ∧ (s.anchorReadDone c).index = s.index ∧ (s.anchorReadDone c).apply =
    s.apply ∧ (s.anchorReadDone c).out = s.out ∧ (s.anchorReadDone c).freeCount = s.freeCount ∧
    (s.anchorReadDone c).pending = s.pending := by
  unfold State.anchorReadDone
  split <;> simp

@[simp] theorem State.closeRecovery_keeps (s : State) (h : Word) :
    (s.closeRecovery h).run = s.run ∧ (s.closeRecovery h).abase = s.abase ∧ (s.closeRecovery h).now = s.now ∧
    (s.closeRecovery h).ports = s.ports ∧ (s.closeRecovery h).profile = s.profile ∧ (s.closeRecovery h).pool =
    s.pool ∧ (s.closeRecovery h).index = s.index ∧ (s.closeRecovery h).holds = s.holds ∧ (s.closeRecovery
    h).apply = s.apply ∧ (s.closeRecovery h).mem = s.mem ∧ (s.closeRecovery h).engine = s.engine ∧
    (s.closeRecovery h).mgmt = s.mgmt ∧ (s.closeRecovery h).out = s.out ∧ (s.closeRecovery h).freeCount =
    s.freeCount ∧ (s.closeRecovery h).pending = s.pending :=
  ⟨rfl, rfl, rfl, rfl, rfl, rfl, rfl, rfl, rfl, rfl, rfl, rfl, rfl, rfl, rfl⟩

@[simp] theorem State.walkOn_keeps (s : State) :
    s.walkOn.run = s.run ∧ s.walkOn.abase = s.abase ∧ s.walkOn.now = s.now ∧ s.walkOn.ports = s.ports ∧
    s.walkOn.profile = s.profile ∧ s.walkOn.pool = s.pool ∧ s.walkOn.index = s.index ∧ s.walkOn.holds =
    s.holds ∧ s.walkOn.apply = s.apply ∧ s.walkOn.mem = s.mem ∧ s.walkOn.engine = s.engine ∧ s.walkOn.mgmt =
    s.mgmt ∧ s.walkOn.out = s.out ∧ s.walkOn.freeCount = s.freeCount ∧ s.walkOn.pending = s.pending := by
  unfold State.walkOn
  (repeat' split) <;> simp

@[simp] theorem State.fixHead_keeps (s : State) (h : Word) :
    (s.fixHead h).run = s.run ∧ (s.fixHead h).abase = s.abase ∧ (s.fixHead h).now = s.now ∧ (s.fixHead
    h).ports = s.ports ∧ (s.fixHead h).profile = s.profile ∧ (s.fixHead h).pool = s.pool ∧ (s.fixHead h).index
    = s.index ∧ (s.fixHead h).holds = s.holds ∧ (s.fixHead h).apply = s.apply ∧ (s.fixHead h).engine =
    s.engine ∧ (s.fixHead h).mgmt = s.mgmt ∧ (s.fixHead h).out = s.out ∧ (s.fixHead h).freeCount = s.freeCount
    ∧ (s.fixHead h).pending = s.pending := by
  simp [State.fixHead]

@[simp] theorem State.scanDone_keeps (s : State) (q : Word) (c : Completion) :
    (s.scanDone q c).run = s.run ∧ (s.scanDone q c).abase = s.abase ∧ (s.scanDone q c).now = s.now ∧
    (s.scanDone q c).profile = s.profile ∧ (s.scanDone q c).pool = s.pool ∧ (s.scanDone q c).index = s.index ∧
    (s.scanDone q c).apply = s.apply ∧ (s.scanDone q c).out = s.out ∧ (s.scanDone q c).freeCount = s.freeCount
    ∧ (s.scanDone q c).pending = s.pending := by
  simp only [State.scanDone]
  (repeat' split) <;> simp

@[simp] theorem State.replayed_keeps (s : State) (g : Group) :
    (s.replayed g).run = s.run ∧ (s.replayed g).abase = s.abase ∧ (s.replayed g).now = s.now ∧ (s.replayed
    g).ports = s.ports ∧ (s.replayed g).profile = s.profile ∧ (s.replayed g).index = s.index ∧ (s.replayed
    g).holds = s.holds ∧ (s.replayed g).apply = s.apply ∧ (s.replayed g).mem = s.mem ∧ (s.replayed g).engine =
    s.engine ∧ (s.replayed g).mgmt = s.mgmt ∧ (s.replayed g).out = s.out ∧ (s.replayed g).freeCount =
    s.freeCount ∧ (s.replayed g).pending = s.pending := by
  simp [State.replayed]

@[simp] theorem State.countCheck_keeps (s : State) (p : Replay) :
    (s.countCheck p).run = s.run ∧ (s.countCheck p).abase = s.abase ∧ (s.countCheck p).now = s.now ∧
    (s.countCheck p).profile = s.profile ∧ (s.countCheck p).index = s.index ∧ (s.countCheck p).apply = s.apply
    ∧ (s.countCheck p).out = s.out ∧ (s.countCheck p).freeCount = s.freeCount ∧ (s.countCheck p).pending =
    s.pending := by
  unfold State.countCheck
  (repeat' split) <;> simp

@[simp] theorem State.collectOn_keeps (s : State) (p : Replay) :
    (s.collectOn p).run = s.run ∧ (s.collectOn p).abase = s.abase ∧ (s.collectOn p).now = s.now ∧ (s.collectOn
    p).profile = s.profile ∧ (s.collectOn p).index = s.index ∧ (s.collectOn p).apply = s.apply ∧ (s.collectOn
    p).out = s.out ∧ (s.collectOn p).freeCount = s.freeCount ∧ (s.collectOn p).pending = s.pending := by
  unfold State.collectOn
  split <;> simp

@[simp] theorem State.beginReplay_keeps (s : State) (q : Word) (b : Byte) (n k e m : Word) :
    (s.beginReplay q b n k e m).run = s.run ∧ (s.beginReplay q b n k e m).abase = s.abase ∧ (s.beginReplay q b
    n k e m).now = s.now ∧ (s.beginReplay q b n k e m).profile = s.profile ∧ (s.beginReplay q b n k e m).index
    = s.index ∧ (s.beginReplay q b n k e m).apply = s.apply ∧ (s.beginReplay q b n k e m).out = s.out ∧
    (s.beginReplay q b n k e m).freeCount = s.freeCount ∧ (s.beginReplay q b n k e m).pending = s.pending := by
  simp [State.beginReplay]

@[simp] theorem State.walkDone_keeps (s : State) (q : Word) (c : Completion) :
    (s.walkDone q c).run = s.run ∧ (s.walkDone q c).abase = s.abase ∧ (s.walkDone q c).now = s.now ∧
    (s.walkDone q c).profile = s.profile ∧ (s.walkDone q c).index = s.index ∧ (s.walkDone q c).apply = s.apply
    ∧ (s.walkDone q c).out = s.out ∧ (s.walkDone q c).freeCount = s.freeCount ∧ (s.walkDone q c).pending =
    s.pending := by
  simp only [State.walkDone]
  (repeat' split) <;> simp

theorem State.collectEntry_keeps {s t : State} {g : Group} {m : Word} {l : Line} {c : List (Option Byte)}
    (h : s.collectEntry g m l c = some t) : t = { s with groups := t.groups, pool := t.pool } := by
  unfold State.collectEntry at h
  dsimp only at h
  split at h
  · cases h; rfl
  · split at h
    · cases h
    · split at h
      · cases h
      · cases h; rfl

@[simp] theorem State.collectDone_keeps (s : State) (q : Word) (c : Completion) :
    (s.collectDone q c).run = s.run ∧ (s.collectDone q c).abase = s.abase ∧ (s.collectDone q c).now = s.now ∧
    (s.collectDone q c).profile = s.profile ∧ (s.collectDone q c).index = s.index ∧ (s.collectDone q c).apply
    = s.apply ∧ (s.collectDone q c).out = s.out ∧ (s.collectDone q c).freeCount = s.freeCount ∧ (s.collectDone
    q c).pending = s.pending := by
  unfold State.collectDone
  split
  · dsimp only
    split
    · split
      · split
        · rename_i t ht; rw [State.collectEntry_keeps ht]; simp
        · simp
      · simp
    · simp
    · simp
  · simp
  · simp

@[simp] theorem State.replayWriteOk_keeps (s : State) :
    s.replayWriteOk.run = s.run ∧ s.replayWriteOk.abase = s.abase ∧ s.replayWriteOk.now = s.now ∧
    s.replayWriteOk.ports = s.ports ∧ s.replayWriteOk.profile = s.profile ∧ s.replayWriteOk.index = s.index ∧
    s.replayWriteOk.holds = s.holds ∧ s.replayWriteOk.apply = s.apply ∧ s.replayWriteOk.mem = s.mem ∧
    s.replayWriteOk.engine = s.engine ∧ s.replayWriteOk.mgmt = s.mgmt ∧ s.replayWriteOk.out = s.out ∧
    s.replayWriteOk.freeCount = s.freeCount ∧ s.replayWriteOk.pending = s.pending := by
  simp only [State.replayWriteOk]
  (repeat' split) <;> simp

@[simp] theorem State.takeRequest_keeps (s : State) (r : Request) :
    (s.takeRequest r).run = s.run ∧ (s.takeRequest r).abase = s.abase ∧ (s.takeRequest r).now = s.now ∧
    (s.takeRequest r).profile = s.profile ∧ (s.takeRequest r).groups = s.groups ∧ (s.takeRequest r).pool =
    s.pool ∧ (s.takeRequest r).index = s.index ∧ (s.takeRequest r).holds = s.holds ∧ (s.takeRequest r).journal
    = s.journal ∧ (s.takeRequest r).apply = s.apply ∧ (s.takeRequest r).ckpt = s.ckpt ∧ (s.takeRequest r).mem
    = s.mem ∧ (s.takeRequest r).service = s.service ∧ (s.takeRequest r).engine = s.engine ∧ (s.takeRequest
    r).mgmt = s.mgmt ∧ (s.takeRequest r).out = s.out ∧ (s.takeRequest r).freeCount = s.freeCount ∧
    (s.takeRequest r).pending = s.pending :=
  ⟨rfl, rfl, rfl, rfl, rfl, rfl, rfl, rfl, rfl, rfl, rfl, rfl, rfl, rfl, rfl, rfl, rfl, rfl⟩

@[simp] theorem State.admitNext_keeps (s : State) (st : Stream) :
    (s.admitNext st).run = s.run ∧ (s.admitNext st).abase = s.abase ∧ (s.admitNext st).now = s.now ∧ (s.admitNext st).profile
    = s.profile ∧ (s.admitNext st).apply = s.apply ∧ (s.admitNext st).service = s.service ∧ (s.admitNext st).engine =
    s.engine ∧ (s.admitNext st).out = s.out ∧ (s.admitNext st).freeCount = s.freeCount ∧ (s.admitNext st).pending =
    s.pending := by
  unfold State.admitNext
  split <;> simp

@[simp] theorem State.payDue_keeps (s : State) (st : Stream) (h : HeldWrite) :
    (s.payDue st h).run = s.run ∧ (s.payDue st h).abase = s.abase ∧ (s.payDue st h).now = s.now ∧
    (s.payDue st h).ports = s.ports ∧ (s.payDue st h).profile = s.profile ∧ (s.payDue st h).groups = s.groups ∧
    (s.payDue st h).pool = s.pool ∧ (s.payDue st h).index = s.index ∧ (s.payDue st h).journal = s.journal ∧
    (s.payDue st h).apply = s.apply ∧ (s.payDue st h).ckpt = s.ckpt ∧ (s.payDue st h).mem = s.mem ∧
    (s.payDue st h).service = s.service ∧ (s.payDue st h).engine = s.engine ∧ (s.payDue st h).mgmt = s.mgmt ∧
    (s.payDue st h).out = s.out ∧ (s.payDue st h).freeCount = s.freeCount ∧ (s.payDue st h).pending = s.pending :=
  ⟨rfl, rfl, rfl, rfl, rfl, rfl, rfl, rfl, rfl, rfl, rfl, rfl, rfl, rfl, rfl, rfl, rfl, rfl⟩

@[simp] theorem State.reExamine_keeps (s : State) (st : Stream) :
    (s.reExamine st).run = s.run ∧ (s.reExamine st).abase = s.abase ∧ (s.reExamine st).now = s.now ∧
    (s.reExamine st).profile = s.profile ∧ (s.reExamine st).apply = s.apply ∧ (s.reExamine st).service =
    s.service ∧ (s.reExamine st).engine = s.engine ∧ (s.reExamine st).out = s.out ∧ (s.reExamine st).freeCount
    = s.freeCount ∧ (s.reExamine st).pending = s.pending := by
  unfold State.reExamine
  split
  · simp
  · split <;> simp

@[simp] theorem State.quiesce_keeps (s : State) :
    s.quiesce.run = s.run ∧ s.quiesce.abase = s.abase ∧ s.quiesce.now = s.now ∧ s.quiesce.ports = s.ports ∧
    s.quiesce.profile = s.profile ∧ s.quiesce.groups = s.groups ∧ s.quiesce.pool = s.pool ∧ s.quiesce.index =
    s.index ∧ s.quiesce.holds = s.holds ∧ s.quiesce.journal = s.journal ∧ s.quiesce.apply = s.apply ∧
    s.quiesce.mem = s.mem ∧ s.quiesce.service = s.service ∧ s.quiesce.out = s.out ∧ s.quiesce.freeCount =
    s.freeCount ∧ s.quiesce.pending = s.pending := by
  unfold State.quiesce
  (repeat' split) <;> simp

@[simp] theorem State.resume_keeps (s : State) :
    s.resume.run = s.run ∧ s.resume.abase = s.abase ∧ s.resume.now = s.now ∧ s.resume.ports = s.ports ∧
    s.resume.profile = s.profile ∧ s.resume.groups = s.groups ∧ s.resume.pool = s.pool ∧ s.resume.index =
    s.index ∧ s.resume.holds = s.holds ∧ s.resume.journal = s.journal ∧ s.resume.apply = s.apply ∧
    s.resume.mem = s.mem ∧ s.resume.service = s.service ∧ s.resume.out = s.out ∧ s.resume.freeCount =
    s.freeCount ∧ s.resume.pending = s.pending := by
  unfold State.resume
  (repeat' split) <;> simp

@[simp] theorem State.discardStream_keeps (x : State × List Line) (st : Stream) :
    (State.discardStream x st).1.run = x.1.run ∧ (State.discardStream x st).1.abase = x.1.abase ∧
    (State.discardStream x st).1.now = x.1.now ∧ (State.discardStream x st).1.profile = x.1.profile ∧
    (State.discardStream x st).1.apply = x.1.apply ∧ (State.discardStream x st).1.ckpt = x.1.ckpt ∧
    (State.discardStream x st).1.mem = x.1.mem ∧ (State.discardStream x st).1.service = x.1.service ∧
    (State.discardStream x st).1.engine = x.1.engine ∧ (State.discardStream x st).1.out = x.1.out ∧
    (State.discardStream x st).1.freeCount = x.1.freeCount ∧ (State.discardStream x st).1.pending = x.1.pending := by
  unfold State.discardStream
  split <;> simp

@[simp] theorem State.discardOpen_keeps (s : State) :
    s.discardOpen.run = s.run ∧ s.discardOpen.abase = s.abase ∧ s.discardOpen.now = s.now ∧
    s.discardOpen.profile = s.profile ∧ s.discardOpen.apply = s.apply ∧ s.discardOpen.mem = s.mem ∧
    s.discardOpen.service = s.service ∧ s.discardOpen.engine = s.engine ∧ s.discardOpen.out = s.out ∧
    s.discardOpen.freeCount = s.freeCount ∧ s.discardOpen.pending = s.pending := by
  unfold State.discardOpen
  split
  · simp only [allStreams, List.foldl]
    split <;> simp
  · simp

@[simp] theorem State.stageFromActive_keeps (s : State) :
    s.stageFromActive.run = s.run ∧ s.stageFromActive.abase = s.abase ∧ s.stageFromActive.now = s.now ∧
    s.stageFromActive.ports = s.ports ∧ s.stageFromActive.profile = s.profile ∧ s.stageFromActive.groups =
    s.groups ∧ s.stageFromActive.pool = s.pool ∧ s.stageFromActive.index = s.index ∧ s.stageFromActive.holds =
    s.holds ∧ s.stageFromActive.journal = s.journal ∧ s.stageFromActive.apply = s.apply ∧
    s.stageFromActive.ckpt = s.ckpt ∧ s.stageFromActive.mem = s.mem ∧ s.stageFromActive.service = s.service ∧
    s.stageFromActive.out = s.out ∧ s.stageFromActive.freeCount = s.freeCount ∧ s.stageFromActive.pending =
    s.pending := by
  unfold State.stageFromActive
  (repeat' split) <;> simp

@[simp] theorem State.clearFault_keeps (s : State) :
    s.clearFault.run = s.run ∧ s.clearFault.abase = s.abase ∧ s.clearFault.now = s.now ∧ s.clearFault.ports =
    s.ports ∧ s.clearFault.groups = s.groups ∧ s.clearFault.pool = s.pool ∧ s.clearFault.index = s.index ∧
    s.clearFault.holds = s.holds ∧ s.clearFault.journal = s.journal ∧ s.clearFault.mem = s.mem ∧
    s.clearFault.out = s.out ∧ s.clearFault.freeCount = s.freeCount ∧ s.clearFault.pending = s.pending := by
  unfold State.clearFault
  split <;> simp

@[simp] theorem State.closeDigest_keeps (s : State) (d : DigestRecord) :
    (s.closeDigest d).run = s.run ∧ (s.closeDigest d).abase = s.abase ∧ (s.closeDigest d).now = s.now ∧
    (s.closeDigest d).ports = s.ports ∧ (s.closeDigest d).profile = s.profile ∧ (s.closeDigest d).groups =
    s.groups ∧ (s.closeDigest d).pool = s.pool ∧ (s.closeDigest d).index = s.index ∧ (s.closeDigest d).holds =
    s.holds ∧ (s.closeDigest d).journal = s.journal ∧ (s.closeDigest d).apply = s.apply ∧ (s.closeDigest
    d).ckpt = s.ckpt ∧ (s.closeDigest d).engine = s.engine ∧ (s.closeDigest d).out = s.out ∧ (s.closeDigest
    d).freeCount = s.freeCount ∧ (s.closeDigest d).pending = s.pending :=
  ⟨rfl, rfl, rfl, rfl, rfl, rfl, rfl, rfl, rfl, rfl, rfl, rfl, rfl, rfl, rfl, rfl⟩

@[simp] theorem State.digest_keeps (s : State) :
    s.digest.run = s.run ∧ s.digest.abase = s.abase ∧ s.digest.now = s.now ∧ s.digest.ports = s.ports ∧
    s.digest.profile = s.profile ∧ s.digest.groups = s.groups ∧ s.digest.pool = s.pool ∧ s.digest.index =
    s.index ∧ s.digest.holds = s.holds ∧ s.digest.journal = s.journal ∧ s.digest.apply = s.apply ∧
    s.digest.ckpt = s.ckpt ∧ s.digest.mem = s.mem ∧ s.digest.engine = s.engine ∧ s.digest.out = s.out ∧
    s.digest.freeCount = s.freeCount ∧ s.digest.pending = s.pending := by
  unfold State.digest
  (repeat' split) <;> simp

@[simp] theorem State.abortRunningDigest_keeps (s : State) :
    s.abortRunningDigest.run = s.run ∧ s.abortRunningDigest.abase = s.abase ∧ s.abortRunningDigest.now = s.now
    ∧ s.abortRunningDigest.ports = s.ports ∧ s.abortRunningDigest.profile = s.profile ∧
    s.abortRunningDigest.groups = s.groups ∧ s.abortRunningDigest.pool = s.pool ∧ s.abortRunningDigest.index =
    s.index ∧ s.abortRunningDigest.holds = s.holds ∧ s.abortRunningDigest.journal = s.journal ∧
    s.abortRunningDigest.apply = s.apply ∧ s.abortRunningDigest.ckpt = s.ckpt ∧ s.abortRunningDigest.engine =
    s.engine ∧ s.abortRunningDigest.out = s.out ∧ s.abortRunningDigest.freeCount = s.freeCount ∧
    s.abortRunningDigest.pending = s.pending := by
  unfold State.abortRunningDigest
  split <;> simp

@[simp] theorem State.abortDigest_keeps (s : State) :
    s.abortDigest.run = s.run ∧ s.abortDigest.abase = s.abase ∧ s.abortDigest.now = s.now ∧
    s.abortDigest.ports = s.ports ∧ s.abortDigest.profile = s.profile ∧ s.abortDigest.groups = s.groups ∧
    s.abortDigest.pool = s.pool ∧ s.abortDigest.index = s.index ∧ s.abortDigest.holds = s.holds ∧
    s.abortDigest.journal = s.journal ∧ s.abortDigest.apply = s.apply ∧ s.abortDigest.ckpt = s.ckpt ∧
    s.abortDigest.engine = s.engine ∧ s.abortDigest.out = s.out ∧ s.abortDigest.freeCount = s.freeCount ∧
    s.abortDigest.pending = s.pending := by
  unfold State.abortDigest
  (repeat' split) <;> simp

@[simp] theorem State.digestComplete_keeps (s : State) (d : DigestRecord) :
    (s.digestComplete d).run = s.run ∧ (s.digestComplete d).abase = s.abase ∧ (s.digestComplete d).now = s.now
    ∧ (s.digestComplete d).ports = s.ports ∧ (s.digestComplete d).profile = s.profile ∧ (s.digestComplete
    d).groups = s.groups ∧ (s.digestComplete d).pool = s.pool ∧ (s.digestComplete d).index = s.index ∧
    (s.digestComplete d).holds = s.holds ∧ (s.digestComplete d).journal = s.journal ∧ (s.digestComplete
    d).apply = s.apply ∧ (s.digestComplete d).ckpt = s.ckpt ∧ (s.digestComplete d).engine = s.engine ∧
    (s.digestComplete d).out = s.out ∧ (s.digestComplete d).freeCount = s.freeCount ∧ (s.digestComplete
    d).pending = s.pending :=
  ⟨rfl, rfl, rfl, rfl, rfl, rfl, rfl, rfl, rfl, rfl, rfl, rfl, rfl, rfl, rfl, rfl⟩

@[simp] theorem State.digestReadDone_keeps (s : State) (c : Completion) :
    (s.digestReadDone c).run = s.run ∧ (s.digestReadDone c).abase = s.abase ∧ (s.digestReadDone c).now = s.now
    ∧ (s.digestReadDone c).ports = s.ports ∧ (s.digestReadDone c).profile = s.profile ∧ (s.digestReadDone
    c).groups = s.groups ∧ (s.digestReadDone c).pool = s.pool ∧ (s.digestReadDone c).index = s.index ∧
    (s.digestReadDone c).holds = s.holds ∧ (s.digestReadDone c).journal = s.journal ∧ (s.digestReadDone
    c).apply = s.apply ∧ (s.digestReadDone c).ckpt = s.ckpt ∧ (s.digestReadDone c).engine = s.engine ∧
    (s.digestReadDone c).out = s.out ∧ (s.digestReadDone c).freeCount = s.freeCount ∧ (s.digestReadDone
    c).pending = s.pending := by
  simp only [State.digestReadDone]
  (repeat' split) <;> simp

@[simp] theorem State.restart_keeps (s : State) :
    s.restart.run = s.run ∧ s.restart.abase = s.abase ∧ s.restart.now = s.now ∧ s.restart.profile = s.profile
    ∧ s.restart.freeCount = s.freeCount ∧ s.restart.pending = s.pending := by
  simp [State.restart]

@[simp] theorem State.withNoRecovery_keeps (s : State) :
    s.withNoRecovery.run = s.run ∧ s.withNoRecovery.abase = s.abase ∧ s.withNoRecovery.now = s.now ∧
    s.withNoRecovery.ports = s.ports ∧ s.withNoRecovery.profile = s.profile ∧ s.withNoRecovery.groups =
    s.groups ∧ s.withNoRecovery.pool = s.pool ∧ s.withNoRecovery.index = s.index ∧ s.withNoRecovery.holds =
    s.holds ∧ s.withNoRecovery.journal = s.journal ∧ s.withNoRecovery.apply = s.apply ∧ s.withNoRecovery.ckpt
    = s.ckpt ∧ s.withNoRecovery.mem = s.mem ∧ s.withNoRecovery.engine = s.engine ∧ s.withNoRecovery.mgmt =
    s.mgmt ∧ s.withNoRecovery.out = s.out ∧ s.withNoRecovery.freeCount = s.freeCount ∧
    s.withNoRecovery.pending = s.pending :=
  ⟨rfl, rfl, rfl, rfl, rfl, rfl, rfl, rfl, rfl, rfl, rfl, rfl, rfl, rfl, rfl, rfl, rfl, rfl⟩

@[simp] theorem State.formatAccepted_keeps (s : State) (w : FormatWork) :
    (s.formatAccepted w).run = s.run ∧ (s.formatAccepted w).abase = s.abase ∧ (s.formatAccepted w).now = s.now
    ∧ (s.formatAccepted w).profile = s.profile ∧ (s.formatAccepted w).freeCount = s.freeCount ∧
    (s.formatAccepted w).pending = s.pending := by
  simp only [State.formatAccepted]
  (repeat' split) <;> simp

@[simp] theorem State.format_keeps (s : State) :
    s.format.run = s.run ∧ s.format.abase = s.abase ∧ s.format.now = s.now ∧ s.format.profile = s.profile ∧
    s.format.freeCount = s.freeCount ∧ s.format.pending = s.pending := by
  simp only [State.format]
  (repeat' split) <;> simp

@[simp] theorem State.formatDone_keeps (s : State) (w : FormatWork) :
    (s.formatDone w).run = s.run ∧ (s.formatDone w).abase = s.abase ∧ (s.formatDone w).now = s.now ∧
    (s.formatDone w).ports = s.ports ∧ (s.formatDone w).pool = s.pool ∧ (s.formatDone w).index = s.index ∧
    (s.formatDone w).apply = s.apply ∧ (s.formatDone w).mem = s.mem ∧ (s.formatDone w).out = s.out ∧
    (s.formatDone w).freeCount = s.freeCount ∧ (s.formatDone w).pending = s.pending := by
  simp [State.formatDone]

@[simp] theorem State.formatFailed_keeps (s : State) :
    s.formatFailed.run = s.run ∧ s.formatFailed.abase = s.abase ∧ s.formatFailed.now = s.now ∧
    s.formatFailed.ports = s.ports ∧ s.formatFailed.groups = s.groups ∧ s.formatFailed.pool = s.pool ∧
    s.formatFailed.index = s.index ∧ s.formatFailed.apply = s.apply ∧ s.formatFailed.out = s.out ∧
    s.formatFailed.freeCount = s.freeCount ∧ s.formatFailed.pending = s.pending := by
  simp [State.formatFailed]

@[simp] theorem State.formatWriteDone_keeps (s : State) (st : MemStatus) :
    (s.formatWriteDone st).run = s.run ∧ (s.formatWriteDone st).abase = s.abase ∧ (s.formatWriteDone st).now =
    s.now ∧ (s.formatWriteDone st).ports = s.ports ∧ (s.formatWriteDone st).pool = s.pool ∧ (s.formatWriteDone
    st).index = s.index ∧ (s.formatWriteDone st).apply = s.apply ∧ (s.formatWriteDone st).out = s.out ∧
    (s.formatWriteDone st).freeCount = s.freeCount ∧ (s.formatWriteDone st).pending = s.pending := by
  simp only [State.formatWriteDone]
  (repeat' split) <;> simp

@[simp] theorem State.withMgmt_keeps (s : State) (f : ManagementPort → ManagementPort) :
    (s.withMgmt f).run = s.run ∧ (s.withMgmt f).abase = s.abase ∧ (s.withMgmt f).now = s.now ∧ (s.withMgmt
    f).ports = s.ports ∧ (s.withMgmt f).profile = s.profile ∧ (s.withMgmt f).groups = s.groups ∧ (s.withMgmt
    f).pool = s.pool ∧ (s.withMgmt f).index = s.index ∧ (s.withMgmt f).holds = s.holds ∧ (s.withMgmt
    f).journal = s.journal ∧ (s.withMgmt f).apply = s.apply ∧ (s.withMgmt f).ckpt = s.ckpt ∧ (s.withMgmt
    f).mem = s.mem ∧ (s.withMgmt f).service = s.service ∧ (s.withMgmt f).engine = s.engine ∧ (s.withMgmt
    f).out = s.out ∧ (s.withMgmt f).freeCount = s.freeCount ∧ (s.withMgmt f).pending = s.pending :=
  ⟨rfl, rfl, rfl, rfl, rfl, rfl, rfl, rfl, rfl, rfl, rfl, rfl, rfl, rfl, rfl, rfl, rfl, rfl⟩

@[simp] theorem State.popCaptured_keeps (s : State) (c : Option Captured) :
    (s.popCaptured c).run = s.run ∧ (s.popCaptured c).abase = s.abase ∧ (s.popCaptured c).now = s.now ∧
    (s.popCaptured c).ports = s.ports ∧ (s.popCaptured c).profile = s.profile ∧ (s.popCaptured c).groups =
    s.groups ∧ (s.popCaptured c).pool = s.pool ∧ (s.popCaptured c).index = s.index ∧ (s.popCaptured c).holds =
    s.holds ∧ (s.popCaptured c).journal = s.journal ∧ (s.popCaptured c).apply = s.apply ∧ (s.popCaptured c).ckpt =
    s.ckpt ∧ (s.popCaptured c).mem = s.mem ∧ (s.popCaptured c).service = s.service ∧ (s.popCaptured c).engine =
    s.engine ∧ (s.popCaptured c).out = s.out ∧ (s.popCaptured c).freeCount = s.freeCount ∧ (s.popCaptured
    c).pending = s.pending :=
  ⟨rfl, rfl, rfl, rfl, rfl, rfl, rfl, rfl, rfl, rfl, rfl, rfl, rfl, rfl, rfl, rfl, rfl, rfl⟩

@[simp] theorem State.popEvent_keeps (s : State) :
    s.popEvent.run = s.run ∧ s.popEvent.abase = s.abase ∧ s.popEvent.now = s.now ∧ s.popEvent.ports = s.ports ∧
    s.popEvent.profile = s.profile ∧ s.popEvent.groups = s.groups ∧ s.popEvent.pool = s.pool ∧ s.popEvent.index =
    s.index ∧ s.popEvent.holds = s.holds ∧ s.popEvent.journal = s.journal ∧ s.popEvent.apply = s.apply ∧
    s.popEvent.ckpt = s.ckpt ∧ s.popEvent.mem = s.mem ∧ s.popEvent.service = s.service ∧ s.popEvent.engine =
    s.engine ∧ s.popEvent.freeCount = s.freeCount ∧ s.popEvent.pending = s.pending :=
  ⟨rfl, rfl, rfl, rfl, rfl, rfl, rfl, rfl, rfl, rfl, rfl, rfl, rfl, rfl, rfl, rfl, rfl⟩

@[simp] theorem State.withFrame_keeps (s : State) (f : Option Frame) :
    (s.withFrame f).run = s.run ∧ (s.withFrame f).abase = s.abase ∧ (s.withFrame f).now = s.now ∧ (s.withFrame
    f).ports = s.ports ∧ (s.withFrame f).profile = s.profile ∧ (s.withFrame f).groups = s.groups ∧ (s.withFrame
    f).pool = s.pool ∧ (s.withFrame f).index = s.index ∧ (s.withFrame f).holds = s.holds ∧ (s.withFrame f).journal
    = s.journal ∧ (s.withFrame f).apply = s.apply ∧ (s.withFrame f).ckpt = s.ckpt ∧ (s.withFrame f).mem = s.mem ∧
    (s.withFrame f).service = s.service ∧ (s.withFrame f).engine = s.engine ∧ (s.withFrame f).out = s.out ∧
    (s.withFrame f).freeCount = s.freeCount ∧ (s.withFrame f).pending = s.pending :=
  ⟨rfl, rfl, rfl, rfl, rfl, rfl, rfl, rfl, rfl, rfl, rfl, rfl, rfl, rfl, rfl, rfl, rfl, rfl⟩

@[simp] theorem State.sampleFrame_keeps (s : State) (f : Frame) :
    (s.sampleFrame f).run = s.run ∧ (s.sampleFrame f).abase = s.abase ∧ (s.sampleFrame f).now = s.now ∧
    (s.sampleFrame f).ports = s.ports ∧ (s.sampleFrame f).profile = s.profile ∧ (s.sampleFrame f).groups =
    s.groups ∧ (s.sampleFrame f).pool = s.pool ∧ (s.sampleFrame f).index = s.index ∧ (s.sampleFrame f).holds =
    s.holds ∧ (s.sampleFrame f).journal = s.journal ∧ (s.sampleFrame f).apply = s.apply ∧ (s.sampleFrame f).ckpt =
    s.ckpt ∧ (s.sampleFrame f).mem = s.mem ∧ (s.sampleFrame f).service = s.service ∧ (s.sampleFrame f).engine =
    s.engine ∧ (s.sampleFrame f).out = s.out ∧ (s.sampleFrame f).pending = s.pending := by
  unfold State.sampleFrame
  dsimp only
  (repeat' split) <;> simp

@[simp] theorem State.writeIntEnable_keeps (s : State) (v : Word) :
    (s.writeIntEnable v).run = s.run ∧ (s.writeIntEnable v).abase = s.abase ∧ (s.writeIntEnable v).now = s.now
    ∧ (s.writeIntEnable v).ports = s.ports ∧ (s.writeIntEnable v).profile = s.profile ∧ (s.writeIntEnable
    v).groups = s.groups ∧ (s.writeIntEnable v).pool = s.pool ∧ (s.writeIntEnable v).index = s.index ∧
    (s.writeIntEnable v).holds = s.holds ∧ (s.writeIntEnable v).journal = s.journal ∧ (s.writeIntEnable
    v).apply = s.apply ∧ (s.writeIntEnable v).ckpt = s.ckpt ∧ (s.writeIntEnable v).mem = s.mem ∧
    (s.writeIntEnable v).service = s.service ∧ (s.writeIntEnable v).engine = s.engine ∧ (s.writeIntEnable
    v).out = s.out ∧ (s.writeIntEnable v).freeCount = s.freeCount ∧ (s.writeIntEnable v).pending = s.pending :=
  ⟨rfl, rfl, rfl, rfl, rfl, rfl, rfl, rfl, rfl, rfl, rfl, rfl, rfl, rfl, rfl, rfl, rfl, rfl⟩

@[simp] theorem State.clearLost_keeps (s : State) :
    s.clearLost.run = s.run ∧ s.clearLost.abase = s.abase ∧ s.clearLost.now = s.now ∧ s.clearLost.ports =
    s.ports ∧ s.clearLost.profile = s.profile ∧ s.clearLost.groups = s.groups ∧ s.clearLost.pool = s.pool ∧
    s.clearLost.index = s.index ∧ s.clearLost.holds = s.holds ∧ s.clearLost.journal = s.journal ∧
    s.clearLost.apply = s.apply ∧ s.clearLost.ckpt = s.ckpt ∧ s.clearLost.mem = s.mem ∧ s.clearLost.service =
    s.service ∧ s.clearLost.engine = s.engine ∧ s.clearLost.out = s.out ∧ s.clearLost.freeCount = s.freeCount
    ∧ s.clearLost.pending = s.pending :=
  ⟨rfl, rfl, rfl, rfl, rfl, rfl, rfl, rfl, rfl, rfl, rfl, rfl, rfl, rfl, rfl, rfl, rfl, rfl⟩

@[simp] theorem State.writeProfileData_keeps (s : State) (w : Fin 4) (v : Word) :
    (s.writeProfileData w v).run = s.run ∧ (s.writeProfileData w v).abase = s.abase ∧ (s.writeProfileData w
    v).now = s.now ∧ (s.writeProfileData w v).ports = s.ports ∧ (s.writeProfileData w v).profile = s.profile ∧
    (s.writeProfileData w v).groups = s.groups ∧ (s.writeProfileData w v).pool = s.pool ∧ (s.writeProfileData
    w v).index = s.index ∧ (s.writeProfileData w v).holds = s.holds ∧ (s.writeProfileData w v).journal =
    s.journal ∧ (s.writeProfileData w v).apply = s.apply ∧ (s.writeProfileData w v).ckpt = s.ckpt ∧
    (s.writeProfileData w v).mem = s.mem ∧ (s.writeProfileData w v).service = s.service ∧ (s.writeProfileData
    w v).mgmt = s.mgmt ∧ (s.writeProfileData w v).out = s.out ∧ (s.writeProfileData w v).freeCount =
    s.freeCount ∧ (s.writeProfileData w v).pending = s.pending := by
  unfold State.writeProfileData
  split <;> simp

@[simp] theorem State.writeArg_keeps (s : State) (i : Fin 4) (v : Word) :
    (s.writeArg i v).run = s.run ∧ (s.writeArg i v).abase = s.abase ∧ (s.writeArg i v).now = s.now ∧
    (s.writeArg i v).ports = s.ports ∧ (s.writeArg i v).profile = s.profile ∧ (s.writeArg i v).groups =
    s.groups ∧ (s.writeArg i v).pool = s.pool ∧ (s.writeArg i v).index = s.index ∧ (s.writeArg i v).holds =
    s.holds ∧ (s.writeArg i v).journal = s.journal ∧ (s.writeArg i v).apply = s.apply ∧ (s.writeArg i v).ckpt
    = s.ckpt ∧ (s.writeArg i v).mem = s.mem ∧ (s.writeArg i v).service = s.service ∧ (s.writeArg i v).engine =
    s.engine ∧ (s.writeArg i v).out = s.out ∧ (s.writeArg i v).freeCount = s.freeCount ∧ (s.writeArg i
    v).pending = s.pending :=
  ⟨rfl, rfl, rfl, rfl, rfl, rfl, rfl, rfl, rfl, rfl, rfl, rfl, rfl, rfl, rfl, rfl, rfl, rfl⟩

@[simp] theorem State.writeSelect_keeps (s : State) (v : Word) :
    (s.writeSelect v).run = s.run ∧ (s.writeSelect v).abase = s.abase ∧ (s.writeSelect v).now = s.now ∧
    (s.writeSelect v).ports = s.ports ∧ (s.writeSelect v).profile = s.profile ∧ (s.writeSelect v).groups =
    s.groups ∧ (s.writeSelect v).pool = s.pool ∧ (s.writeSelect v).index = s.index ∧ (s.writeSelect v).holds =
    s.holds ∧ (s.writeSelect v).journal = s.journal ∧ (s.writeSelect v).apply = s.apply ∧ (s.writeSelect
    v).ckpt = s.ckpt ∧ (s.writeSelect v).mem = s.mem ∧ (s.writeSelect v).service = s.service ∧ (s.writeSelect
    v).engine = s.engine ∧ (s.writeSelect v).out = s.out ∧ (s.writeSelect v).freeCount = s.freeCount ∧
    (s.writeSelect v).pending = s.pending :=
  ⟨rfl, rfl, rfl, rfl, rfl, rfl, rfl, rfl, rfl, rfl, rfl, rfl, rfl, rfl, rfl, rfl, rfl, rfl⟩

end Sys2Proof.Machine
end

