-- ==== Sys2Proof/Laws/Ops.lean ====
section
/-! SUPPORT. What the shared operations do: one lemma for each thing an event, a departure, an issue or a completion does. -/

namespace Sys2Proof.Machine

/-! ### Events -/

/-- An event whose conditions hold. -/
theorem happen_next {s : State} {b : Bool} {f : State → State} (hr : s.run = .running) (hb : b = true) :
    happen s b f = .next (f s.clearOut).finish := by simp [happen, hr, hb]

/-- An event whose conditions do not hold changes nothing but the outputs. -/
theorem happen_idle {s : State} {b : Bool} {f : State → State} (h : s.run ≠ .running ∨ b = false) :
    happen s b f = .next s.clearOut := by
  rcases h with h | h <;> simp [happen, h]

/-- An event answers one of the two. -/
theorem happen_cases (s : State) (b : Bool) (f : State → State) :
    (s.run = .running ∧ b = true ∧ happen s b f = .next (f s.clearOut).finish)
      ∨ happen s b f = .next s.clearOut := by
  by_cases h : s.run = .running <;> cases b <;> simp [happen, h]

/-! ### Departures (R47) -/

theorem departures_of_head {l : List Place} (h : ∀ p, l.head? = some p → ∀ x, p.phase ≠ .ready x) :
    departures l = ([], l) := by
  cases l with
  | nil => rfl
  | cons p l =>
    have := h p rfl
    unfold departures
    split
    · simp_all
    all_goals rfl

/-- A ready place has left with its response, or is still there. -/
theorem mem_departures {l : List Place} {q : Place} {x : Status} (hq : q ∈ l) (hx : q.phase = .ready x) :
    ⟨q.request.stream, q.request.tag, x⟩ ∈ (departures l).1 ∨ q ∈ (departures l).2 := by
  induction l with
  | nil => cases hq
  | cons p l ih =>
    unfold departures
    split
    · rename_i status hp
      rcases List.mem_cons.1 hq with rfl | hq
      · left; simp_all
      · rcases ih hq with h | h
        · left; simp [h]
        · right; simpa using h
    all_goals exact .inr hq

/-- What stays behind was there. -/
theorem mem_of_mem_departures {l : List Place} {q : Place} (h : q ∈ (departures l).2) : q ∈ l := by
  induction l with
  | nil => exact h
  | cons p l ih =>
    unfold departures at h
    split at h
    · exact List.mem_cons_of_mem _ (ih h)
    all_goals exact h

/-- No ready place stands at the front of what stays behind. -/
theorem departures_head (l : List Place) : ∀ p, (departures l).2.head? = some p → ∀ x, p.phase ≠ .ready x := by
  induction l with
  | nil => simp [departures]
  | cons p l ih =>
    unfold departures
    split
    · exact ih
    all_goals
      rename_i h
      intro q hq x
      simp only [List.head?_cons, Option.some.injEq] at hq
      subst hq
      simp [h]

theorem departures_length (l : List Place) : (departures l).2.length ≤ l.length := by
  induction l with
  | nil => simp [departures]
  | cons p l ih =>
    unfold departures
    split
    · simp only [List.length_cons]; omega
    all_goals simp

/-! ### The end of an event -/

theorem finish_places (s : State) (st : Stream) :
    (getV s.finish.ports st).places = (departures (getV s.ports st).places).2 := by
  simp only [State.finish, State.refreshReady_keeps, State.departAll, getV_mapStreams]

theorem finish_nextIndex (s : State) (st : Stream) : (getV s.finish.ports st).nextIndex = (getV s.ports st).nextIndex := by
  simp only [State.finish, State.refreshReady_keeps, State.departAll, getV_mapStreams]

theorem finish_responses (s : State) : s.finish.out.responses =
    s.out.responses ++ allStreams.flatMap fun st => (departures (getV s.ports st).places).1 := by
  simp only [State.finish, State.refreshReady_keeps, State.departAll]

@[simp] theorem finish_issued (s : State) : s.finish.out.issued = s.out.issued := by
  simp only [State.finish, State.refreshReady_keeps, State.departAll]

@[simp] theorem finish_miso (s : State) : s.finish.out.miso = s.out.miso := by
  simp only [State.finish, State.refreshReady_keeps, State.departAll]

@[simp] theorem finish_shifted (s : State) : s.finish.out.shifted = s.out.shifted := by
  simp only [State.finish, State.refreshReady_keeps, State.departAll]

@[simp] theorem finish_service (s : State) :
    s.finish.service.recovery = s.service.recovery ∧ s.finish.service.replay = s.service.replay ∧
    s.finish.service.format = s.service.format ∧ s.finish.service.digest = s.service.digest := by
  simp only [State.finish, State.refreshReady]
  split <;> simp

/-- With nothing ready at a front, nothing leaves. -/
theorem finish_quiet {s : State} (h : NoReadyFront s) :
    s.finish.ports = s.ports ∧ s.finish.out.responses = s.out.responses := by
  constructor
  · apply tables_ext
    intro st
    have e : ∀ p q : StreamPort, p.places = q.places → p.nextIndex = q.nextIndex → p = q := by
      rintro ⟨⟩ ⟨⟩ h1 h2; simp_all
    exact e _ _ (by rw [finish_places, departures_of_head (h st)]) (finish_nextIndex s st)
  · rw [finish_responses]
    have : ∀ st, (departures (getV s.ports st).places).1 = [] := fun st => by rw [departures_of_head (h st)]
    simp [this]

/-- After an event no ready response stands at a front. -/
theorem noReadyFront_finish (s : State) : NoReadyFront s.finish := by
  intro st p hp
  rw [finish_places] at hp
  exact departures_head _ p hp

/-- A place whose response is ready is answered by the end of the event. -/
theorem answered_finish {s : State} {st : Stream} {p q : Place} {x : Status} (hq : q ∈ (getV s.ports st).places)
    (hx : q.phase = .ready x) (hi : q.index = p.index) (hs : q.request = p.request) : Answered s.finish st p x := by
  rcases mem_departures hq hx with h | h
  · left
    rw [finish_responses]
    refine List.mem_append_right _ (List.mem_flatMap.2 ⟨st, mem_allStreams st, ?_⟩)
    simpa [hs] using h
  · right
    exact ⟨q, by rw [finish_places]; exact h, hi, hx⟩

/-! ### Places -/

theorem updatePlace_places (s : State) (st : Stream) (i : Fin 4) (f : Place → Place) :
    (getV (s.updatePlace st i f).ports st).places
      = (getV s.ports st).places.map fun q => if q.index = i then f q else q := by
  simp [State.updatePlace, StreamPort.update]

theorem updatePlace_other (s : State) (st o : Stream) (i : Fin 4) (f : Place → Place) (h : o ≠ st) :
    getV (s.updatePlace st i f).ports o = getV s.ports o := by
  simp [State.updatePlace, getV_setV_other _ _ _ _ h]

/-- The place that `place?` finds is in the queue, under its number. -/
theorem place?_mem {s : State} {st : Stream} {i : Fin 4} {p : Place} (h : s.place? st i = some p) :
    p ∈ (getV s.ports st).places ∧ p.index = i := by
  unfold State.place? at h
  exact ⟨List.mem_of_find?_eq_some h, by simpa using List.find?_some h⟩

theorem nextRequest_mem {s : State} {st : Stream} {p : Place} (h : s.nextRequest st = some p) :
    p ∈ (getV s.ports st).places ∧ p.phase = .waiting := by
  unfold State.nextRequest at h
  exact ⟨List.mem_of_find?_eq_some h, by simpa using List.find?_some h⟩

/-- Making the response of a place that is there ready answers its request. -/
theorem makeReady_answered {s : State} {st : Stream} {p : Place} {x : Status} (hp : p ∈ (getV s.ports st).places) :
    Answered (s.makeReady st p.index x).finish st p x := by
  refine answered_finish (q := { p with phase := .ready x }) ?_ rfl rfl rfl
  unfold State.makeReady
  rw [updatePlace_places]
  exact List.mem_map.2 ⟨p, hp, by simp⟩

/-- A decline of a request that is there has the effects of R62. -/
theorem decline_declined {s : State} {st : Stream} {p : Place} {r : DeclineReason}
    (hp : p ∈ (getV s.ports st).places) : Declined s (s.decline st p r).finish st p r := by
  refine ⟨?_, by simp [State.decline, State.pushEvent, State.updatePlace]⟩
  refine answered_finish (q := { p with phase := .ready (.declined r), buffer := none }) ?_ rfl rfl rfl
  have : (s.decline st p r).ports
      = (s.updatePlace st p.index fun q => { q with phase := .ready (.declined r), buffer := none }).ports := rfl
  rw [this, updatePlace_places]
  exact List.mem_map.2 ⟨p, hp, by simp⟩

/-- Changing a place to a phase that is not ready leaves no ready response at a front. -/
theorem noReadyFront_updatePlace {s : State} (h : NoReadyFront s) (st : Stream) (i : Fin 4) (f : Place → Place)
    (hf : ∀ q x, (f q).phase ≠ .ready x) : NoReadyFront (s.updatePlace st i f) := by
  intro o p hp x
  by_cases ho : o = st
  · subst ho
    rw [updatePlace_places] at hp
    cases hl : (getV s.ports o).places with
    | nil => simp [hl] at hp
    | cons q l =>
      simp only [hl, List.map_cons, List.head?_cons, Option.some.injEq] at hp
      subst hp
      split
      · exact hf _ _
      · exact h o q (by simp [hl]) x
  · rw [updatePlace_other _ _ _ _ _ ho] at hp
    exact h o p hp x

/-! ### Event records (R181) -/

/-- An event record joins, or is dropped and counted when 32 are queued (R181). -/
theorem push_events (m : ManagementPort) (e : Event) :
    (m.push e).events = if m.events.length < 32 then m.events ++ [e] else m.events := by
  unfold ManagementPort.push
  split
  · rfl
  · split <;> rfl

/-- Nothing but the queue and the lost count changes with an event record. -/
@[simp] theorem push_keeps (m : ManagementPort) (e : Event) :
    (m.push e).args = m.args ∧ (m.push e).intEnable = m.intEnable ∧ (m.push e).selectActive = m.selectActive ∧
    (m.push e).selectItem = m.selectItem ∧ (m.push e).running = m.running ∧ (m.push e).result = m.result ∧
    (m.push e).latch1 = m.latch1 ∧ (m.push e).latch2 = m.latch2 ∧ (m.push e).latch3 = m.latch3 ∧
    (m.push e).commits = m.commits ∧ (m.push e).discards = m.discards ∧ (m.push e).declines = m.declines ∧
    (m.push e).records = m.records ∧ (m.push e).digestResult = m.digestResult ∧
    (m.push e).coveredBytes = m.coveredBytes ∧ (m.push e).frame = m.frame := by
  unfold ManagementPort.push
  split
  · simp
  · split <;> simp

/-! ### An effect and its frame in one -/

/-- Two states with the same fields are the same. -/
theorem State.ext_fields {t u : State} (h1 : t.run = u.run) (h2 : t.abase = u.abase) (h3 : t.now = u.now)
    (h4 : t.ports = u.ports) (h5 : t.profile = u.profile) (h6 : t.groups = u.groups) (h7 : t.pool = u.pool)
    (h8 : t.index = u.index) (h9 : t.holds = u.holds) (h10 : t.journal = u.journal) (h11 : t.apply = u.apply)
    (h12 : t.ckpt = u.ckpt) (h13 : t.mem = u.mem) (h14 : t.service = u.service) (h15 : t.engine = u.engine)
    (h16 : t.mgmt = u.mgmt) (h17 : t.out = u.out) (h18 : t.freeCount = u.freeCount) (h19 : t.pending = u.pending) :
    t = u := by
  cases t; cases u; simp_all

/-- The end of an event changes the ports, the outputs and what `Becomes` leaves open, nothing else. -/
theorem becomes_finish (u : State) : Becomes u.finish { u with ports := u.finish.ports } := by
  unfold Becomes
  apply State.ext_fields <;> simp
  have h := finish_service u
  rcases hs : u.finish.service with ⟨⟩
  rcases hu : u.service with ⟨⟩
  simp_all

/-- With nothing ready at a front, the end of an event changes nothing `Becomes` speaks of. -/
theorem becomes_finish_quiet {u : State} (h : NoReadyFront u) : Becomes u.finish u := by
  have := becomes_finish u
  rwa [(finish_quiet h).1] at this

/-- With nothing ready at a front, the outputs stay as the event made them. -/
theorem out_finish_quiet {u : State} (h : NoReadyFront u) : u.finish.out = u.out := by
  have h1 := (finish_quiet h).2
  have h2 := finish_issued u
  have h3 := finish_shifted u
  have h4 := finish_miso u
  rcases hu : u.finish.out with ⟨⟩
  rcases hv : u.out with ⟨⟩
  simp_all

/-- Whether nothing ready stands at a front depends on the ports alone. -/
theorem noReadyFront_of_ports {s u : State} (h : NoReadyFront s) (hp : u.ports = s.ports) : NoReadyFront u := by
  intro st p; rw [hp]; exact h st p

/-- An event with its conditions met, in which no response becomes ready, makes of the state what its effect says. -/
theorem leads_quiet {c : Instr} {s u : State} {b : Bool} {f : State → State} {P : State → Prop}
    (hx : exec c s = happen s b f) (hr : s.run = .running) (hb : b = true) (hu : f s.clearOut = u) (hq : NoReadyFront u)
    (hP : ∀ t, Becomes t u → t.out = u.out → P t) : Leads c s P := by
  refine ⟨u.finish, ?_, hP _ (becomes_finish_quiet hq) (out_finish_quiet hq)⟩
  rw [hx, happen_next hr hb, hu]

/-- The end of an event that changes the places of one stream by `f`. -/
theorem settles_finish {s u : State} {st : Stream} {f : Place → Place} (h : NoReadyFront s)
    (hu : u.ports = setV s.ports st { (getV s.ports st) with places := (getV s.ports st).places.map f })
    (ho : u.out.responses = []) : Settles s u.finish st f := by
  have hp : ∀ o, o ≠ st → getV u.ports o = getV s.ports o := fun o hne => by rw [hu, getV_setV_other _ _ _ _ hne]
  refine ⟨by rw [finish_nextIndex, hu]; simp, by rw [finish_places, hu]; simp, ?_, ?_⟩
  · rw [finish_responses, ho, List.nil_append]
    have : ∀ o, (departures (getV u.ports o).places).1
        = if o = st then (departures ((getV s.ports st).places.map f)).1 else [] := by
      intro o
      split
      · subst o; rw [hu]; simp
      · rename_i hne; rw [hp o hne, departures_of_head (h o)]
    simp only [this]
    rcases st with ⟨n, hn⟩
    interval_cases n <;> simp [allStreams]
  · intro o hne
    have e : ∀ p q : StreamPort, p.places = q.places → p.nextIndex = q.nextIndex → p = q := by
      rintro ⟨⟩ ⟨⟩ h1 h2; simp_all
    apply e
    · rw [finish_places, hp o hne, departures_of_head (h o)]
    · rw [finish_nextIndex, hp o hne]

/-! ### Completions (R139) -/

/-- The completion of a live entry outside a drain reaches its requester. -/
theorem acknowledge_next {s : State} {e : MemEntry} {rest : List MemEntry} {serves : Purpose → Bool} {b : Bool}
    {f : State → State} (hr : s.run = .running) (ha : Awaits s e rest) (hs : serves e.purpose = true) (hb : b = true) :
    acknowledge s serves b f = .next (f s.clearOut.dropFront).finish := by
  obtain ⟨h1, h2, h3⟩ := ha
  simp [acknowledge, happen, hr, hb, State.frontServes, State.frontIgnored, State.front, h1, h2, h3, hs]

/-- The completion of a live READ outside a drain, with its data, reaches its requester. -/
theorem complete_next {s : State} {e : MemEntry} {rest : List MemEntry} {serves : Purpose → Bool} {c : Completion}
    {f : Purpose → State → State} (hr : s.run = .running) (ha : Awaits s e rest) (hs : serves e.purpose = true)
    (hc : e.request.fits c = true) : complete s serves c f = .next (f e.purpose s.clearOut.dropFront).finish := by
  obtain ⟨h1, h2, h3⟩ := ha
  simp [complete, happen, hr, State.front, h1, h2, h3, hs, hc]

/-- The completion of a live entry outside a drain, when the requester's action makes no response ready. -/
theorem acknowledge_leads {c : Instr} {s u : State} {e : MemEntry} {rest : List MemEntry} {serves : Purpose → Bool}
    {b : Bool} {f : State → State} {P : State → Prop} (hx : exec c s = acknowledge s serves b f) (hl : Live s)
    (ha : Awaits s e rest) (hs : serves e.purpose = true) (hb : b = true)
    (hu : f { s.clearOut with mem := { s.mem with outstanding := rest } } = u) (hp : u.ports = s.ports)
    (hP : ∀ t, Becomes t u → t.out = u.out → P t) : Leads c s P := by
  have e0 : s.clearOut.dropFront = { s.clearOut with mem := { s.mem with outstanding := rest } } := by
    simp [State.dropFront, State.clearOut, ha.1]
  have hq := noReadyFront_of_ports hl.2 hp
  refine ⟨u.finish, ?_, hP _ (becomes_finish_quiet hq) (out_finish_quiet hq)⟩
  rw [hx, acknowledge_next hl.1 ha hs hb, e0, hu]

/-- The same for a completion that may carry data. -/
theorem complete_leads {i : Instr} {s u : State} {e : MemEntry} {rest : List MemEntry} {serves : Purpose → Bool}
    {c : Completion} {f : Purpose → State → State} {P : State → Prop} (hx : exec i s = complete s serves c f) (hl : Live s)
    (ha : Awaits s e rest) (hs : serves e.purpose = true) (hc : e.request.fits c = true)
    (hu : f e.purpose { s.clearOut with mem := { s.mem with outstanding := rest } } = u) (hp : u.ports = s.ports)
    (hP : ∀ t, Becomes t u → t.out = u.out → P t) : Leads i s P := by
  have e0 : s.clearOut.dropFront = { s.clearOut with mem := { s.mem with outstanding := rest } } := by
    simp [State.dropFront, State.clearOut, ha.1]
  have hq := noReadyFront_of_ports hl.2 hp
  refine ⟨u.finish, ?_, hP _ (becomes_finish_quiet hq) (out_finish_quiet hq)⟩
  rw [hx, complete_next hl.1 ha hs hc, e0, hu]

end Sys2Proof.Machine
end

