-- ==== Sys2Proof/Laws/Examine.lean ====
section
/-! SUPPORT. What the classification answers, and what an examination starts from. -/

namespace Sys2Proof.Machine

/-- A request that R53 to R57 or the cycle check decline is classified so. -/
theorem classify_of_declinedAt {s : State} {st : Stream} {r : Request} {reason : DeclineReason} (h : DeclinedAt s st r reason) :
    s.classify st r = .decline reason := by
  cases reason <;> simp only [DeclinedAt] at h
  · obtain ⟨h1, h2, h3, h4⟩ := h
    obtain ⟨p, hp⟩ := Option.isSome_iff_exists.1 h2
    simp [State.classify, *]
  · obtain ⟨h1, h2, h3⟩ := h
    obtain ⟨p, hp⟩ := Option.isSome_iff_exists.1 h2
    simp [State.classify, *]
  · obtain ⟨p, g, ⟨⟨h1, h2, h3, h4, h5⟩, h6, h7, h8⟩, h9⟩ := h
    simp [State.classify, State.classifyWrite, State.classifyProtected, h1, h3, h4, h5, h6, h7, h8]
    simp_all
  · obtain ⟨p, g, ⟨⟨h1, h2, h3, h4, h5⟩, h6, h7, h8⟩, h9⟩ := h
    simp [State.classify, State.classifyWrite, State.classifyProtected, *]
  · rcases h with h | ⟨h0, p, ⟨h1, h2, h3, h4, h5⟩, h | ⟨g, ⟨_, h6, h7, h8⟩, h9⟩⟩
    · simp [State.classify, *]
    · obtain ⟨a, b, c⟩ := h
      simp [State.classify, State.classifyRead, *]
      cases hh : p.regionAt r.first <;> simp_all
    · simp [State.classify, State.classifyWrite, State.classifyProtected, *]
  · obtain ⟨p, g, ⟨⟨⟨h1, h2, h3, h4, h5⟩, h6, h7, h8⟩, h9, h10, h11⟩, h12, h13⟩ := h
    rcases h11 with h | ⟨h, h'⟩ <;>
    simp [State.classify, State.classifyWrite, State.classifyProtected, State.journaledPath, *]
    cases hh : s.openGroup? st <;> simp_all

/-- A write that R57, R68, R76 or R79 hold is classified so. -/
theorem classify_of_heldAt {s : State} {st : Stream} {r : Request} {pr : Profile} {w : List Stream} {want : Bool}
    {kind : HoldKind} (h : HeldAt s st r pr w want kind) :
    s.classify st r = .hold kind w want := by
  cases kind <;> simp only [HeldAt] at h
  · obtain ⟨rfl, rfl, g, ⟨⟨⟨h1, h2, h3, h4, h5⟩, h6, h7, h8⟩, h9, h10, h11⟩, h12, h13⟩ := h
    rcases h11 with h | ⟨h, h'⟩ <;>
    simp [State.classify, State.classifyWrite, State.classifyProtected, State.journaledPath, *]
    cases hh : s.openGroup? st <;> simp_all
  · obtain ⟨rfl, g, ⟨⟨⟨h1, h2, h3, h4, h5⟩, h6, h7, h8⟩, h9, h10, h11⟩, h12, h13, h14⟩ := h
    have e : s.classify st r = s.spaceChecks pr (getV pr.streams st) st r := by
      unfold ConflictFree at h12
      rcases h11 with h | ⟨h, h'⟩ <;>
      simp [State.classify, State.classifyWrite, State.classifyProtected, State.journaledPath, *]
      cases hh : s.openGroup? st <;> simp_all
    rw [e]; unfold State.spaceChecks
    rw [if_neg (by omega)]
    rcases h14 with ⟨⟨a, b⟩, rfl⟩ | ⟨a, b, c, rfl⟩
    · simp [*]
    · have : ((s.openGroup? st).isNone && decide (s.freeSlots < s.newSlots st r + pr.openReserve.toNat)) = false := by
        simp only [BelowReserve, not_and, Nat.not_lt] at a
        cases hh : s.openGroup? st <;> simp_all
      rw [this]
      simp only [Bool.false_eq_true, if_false]
      have b' : (s.shortSlots st r || s.shortQueue r (isCommitWrite (getV pr.streams st) r) || s.shortRing st r) = true := by
        simp only [State.shortSlots, State.shortQueue, State.shortRing, Bool.or_eq_true, decide_eq_true_eq]
        by_contra hh
        apply b
        simp only [not_or, Nat.not_lt] at hh
        omega
      simp [b', c]
  · obtain ⟨rfl, rfl, g, ⟨⟨⟨h1, h2, h3, h4, h5⟩, h6, h7, h8⟩, h9, h10, h11⟩, h12, ⟨h13,h13'⟩, ⟨n1,n2,n3,n4⟩, h15, h16, h17, h18⟩ := h
    have e : s.classify st r = s.spaceChecks pr (getV pr.streams st) st r := by
      unfold ConflictFree at h12
      rcases h11 with h | ⟨h, h'⟩ <;>
      simp [State.classify, State.classifyWrite, State.classifyProtected, State.journaledPath, *]
      cases hh : s.openGroup? st <;> simp_all
    rw [e]; unfold State.spaceChecks
    rw [if_neg (by omega)]
    have : ((s.openGroup? st).isNone && decide (s.freeSlots < s.newSlots st r + pr.openReserve.toNat)) = false := by
      cases hh : s.openGroup? st <;> simp_all
    rw [this]
    have a1 : s.shortSlots st r = false := by simp [State.shortSlots, n1]
    have a2 : s.shortRing st r = false := by simp [State.shortRing, n3]
    have a3 : s.shortPipeline true = true := by simp [State.shortPipeline, h17]
    simp [a1, a2, a3, h16, h15, h18]
  · obtain ⟨rfl, rfl, g, ⟨⟨h1, h2, h3, h4, h5⟩, h6, h7, h8⟩, h9, h10, h11⟩ := h
    rcases h11 with h | ⟨h, h'⟩ <;>
    simp [State.classify, State.classifyWrite, State.classifyProtected, *]

/-- A write over the entry limit or overflowed is classified so (R16, R80). -/
theorem classify_of_overflowsAt {s : State} {st : Stream} {r : Request} {why : DiscardReason} (h : OverflowsAt s st r why) :
    s.classify st r = .discard why (if why = .groupLimit then .groupLimit else .overflow) := by
  cases why <;> simp only [OverflowsAt] at h
  · obtain ⟨pr, g, ⟨⟨⟨h1, h2, h3, h4, h5⟩, h6, h7, h8⟩, h9, h10, h11⟩, h12, h14⟩ := h
    unfold ConflictFree at h12
    rcases h11 with h | ⟨h, h'⟩ <;>
    simp [State.classify, State.classifyWrite, State.classifyProtected, State.journaledPath, State.spaceChecks, *]
    cases hh : s.openGroup? st <;> simp_all
  · obtain ⟨pr, g, ⟨⟨⟨h1, h2, h3, h4, h5⟩, h6, h7, h8⟩, h9, h10, h11⟩, h12, ⟨h13,h13'⟩, h14, h15⟩ := h
    have e : s.classify st r = s.spaceChecks pr (getV pr.streams st) st r := by
      unfold ConflictFree at h12
      rcases h11 with h | ⟨h, h'⟩ <;>
      simp [State.classify, State.classifyWrite, State.classifyProtected, State.journaledPath, *]
      cases hh : s.openGroup? st <;> simp_all
    rw [e]; unfold State.spaceChecks
    rw [if_neg (by omega)]
    have : ((s.openGroup? st).isNone && decide (s.freeSlots < s.newSlots st r + pr.openReserve.toNat)) = false := by
      cases hh : s.openGroup? st <;> simp_all
    rw [this]
    have b' : (s.shortSlots st r || s.shortQueue r (isCommitWrite (getV pr.streams st) r) || s.shortRing st r || s.shortPipeline (isCommitWrite (getV pr.streams st) r)) = true := by
        simp only [State.shortSlots, State.shortQueue, State.shortRing, State.shortPipeline, Bool.or_eq_true, decide_eq_true_eq, Bool.and_eq_true]
        by_contra hh
        apply h14
        simp only [not_or, Nat.not_lt, not_and] at hh
        refine ⟨by omega, by omega, by omega, fun hc => by have := hh.2 hc; omega⟩
    simp [b', h15]

/-- A request that passes through is classified so (R53, R54, R56). -/
theorem classify_of_passesAt {s : State} {st : Stream} {r : Request} {cancel : Bool} (h : PassesAt s st r cancel) :
    s.classify st r = .pass cancel := by
  rcases h with ⟨h, rfl⟩ | ⟨pr, ⟨h1, h2, h3, h4, h5⟩, h6, ⟨h7, rfl⟩ | ⟨h7, h8, rfl⟩⟩
  · simp [State.classify, h]
  · simp [State.classify, State.classifyRead, *]
  · simp [State.classify, State.classifyWrite, *]

/-- A write that is taken is classified so (R58, R59). -/
theorem classify_of_takenAt {s : State} {st : Stream} {r : Request} {commit : Bool} (h : TakenAt s st r commit) :
    s.classify st r = .take commit := by
    obtain ⟨pr, g, ⟨⟨⟨h1, h2, h3, h4, h5⟩, h6, h7, h8⟩, h9, h10, h11⟩, rfl, h12, ⟨h13,h13'⟩, n1, n2, n3, n4⟩ := h
    have e : s.classify st r = s.spaceChecks pr (getV pr.streams st) st r := by
      unfold ConflictFree at h12
      rcases h11 with h | ⟨h, h'⟩ <;>
      simp [State.classify, State.classifyWrite, State.classifyProtected, State.journaledPath, *]
      cases hh : s.openGroup? st <;> simp_all
    rw [e]; unfold State.spaceChecks
    rw [if_neg (by omega)]
    have : ((s.openGroup? st).isNone && decide (s.freeSlots < s.newSlots st r + pr.openReserve.toNat)) = false := by
      cases hh : s.openGroup? st <;> simp_all
    rw [this]
    have a1 : s.shortSlots st r = false := by simp [State.shortSlots, n1]
    have a2 : s.shortRing st r = false := by simp [State.shortRing, n3]
    have a4 : s.shortQueue r (isCommitWrite (getV pr.streams st) r) = false := by simp [State.shortQueue, n2]
    have a3 : s.shortPipeline (isCommitWrite (getV pr.streams st) r) = false := by
      simp only [State.shortPipeline]
      cases hc : isCommitWrite (getV pr.streams st) r <;> simp_all
    simp [a1, a2, a3, a4]

/-- A merged read is classified so (R54). -/
theorem classify_of_mergedAt {s : State} {st : Stream} {r : Request} (h : MergedAt s r) : s.classify st r = .merged := by
  obtain ⟨pr, ⟨h1, h2, h3, h4, h5⟩, h6, h7, h8⟩ := h
  simp [State.classify, State.classifyRead, h1, h3, h4, h5, h6]
  obtain ⟨g, hg⟩ := Option.isSome_iff_exists.1 h7
  simp [hg]
  intro hf
  obtain ⟨c, hc, ho⟩ := h8 hf
  exact ⟨c, hc, ho⟩

/-- A zero-enable write is classified so (R55). -/
theorem classify_of_zeroEnableAt {s : State} {st : Stream} {r : Request} (h : ZeroEnableAt s r) :
    s.classify st r = .zeroEnable := by
  obtain ⟨pr, ⟨h1, h2, h3, h4, h5⟩, h6, h7⟩ := h
  simp [State.classify, State.classifyWrite, h1, h3, h4, h5, h6, h7]

/-- What the cycle check follows does not depend on what is owed. -/
theorem followed_payDue {s : State} {st : Stream} {h : HeldWrite} (hh : getV s.holds st = some h) (o : Stream) :
    (s.payDue st h).followed o = s.followed o := by
  unfold State.followed State.payDue
  by_cases ho : o = st
  · subst ho; simp [hh]
  · simp [getV_setV_other _ _ _ _ ho]

/-- The cycle check does not depend on what is owed. -/
theorem closesCycle_payDue {s : State} {st : Stream} {h : HeldWrite} (hh : getV s.holds st = some h) (o : Stream)
    (w : List Stream) : (s.payDue st h).closesCycle o w = s.closesCycle o w := by
  have e : ∀ n l, (s.payDue st h).reach n l = s.reach n l := by
    intro n
    induction n with
    | zero => intro l; rfl
    | succ n ih => intro l; simp only [State.reach, State.reachStep, ih, followed_payDue hh]
  simp only [State.closesCycle, e]

/-- The classification does not depend on what is owed. -/
theorem classify_payDue {s : State} {st : Stream} {h : HeldWrite} (hh : getV s.holds st = some h) (o : Stream)
    (r : Request) : (s.payDue st h).classify o r = s.classify o r := by
  have e := closesCycle_payDue hh
  unfold State.classify State.classifyWrite State.classifyProtected State.journaledPath
  simp only [e]
  rfl

/-- The state an examination of `st` acts on: one re-examination paid, when it is one. -/
def State.paid (s : State) (st : Stream) : Instr → State
  | .reExamination _ => match getV s.holds st with
    | none => s
    | some h => s.payDue st h
  | _ => s

/-- An examination classifies the request and acts on the verdict. -/
theorem exec_of_examines {s : State} {c : Instr} {st : Stream} {p : Place} (hr : s.run = .running)
    (he : Examines s c st p) :
    exec c s = .next (((s.clearOut).paid st c).act st p (s.classify st p.request)).finish := by
  rcases he with ⟨rfl, ⟨h1, h2⟩, h3⟩ | ⟨rfl, h1, h, h2, h3, h4⟩
  · simp only [exec, execAdmission, State.paid]
    rw [happen_next hr (by simp [h1, h2])]
    have : s.clearOut.nextRequest st = some p := h2
    simp only [State.admitNext, this, State.examine]
    rfl
  · simp only [exec, execReExamination, State.paid]
    rw [happen_next hr (by simp [h1, h2, h3, State.owed])]
    have e2 : getV s.clearOut.holds st = some h := h2
    have e4 : s.clearOut.place? st h.place = some p := h4
    simp only [State.reExamine, e2, e4, State.examine]
    rw [classify_payDue e2]
    rfl

/-- The examined request is in its stream's queue. -/
theorem examines_mem {s : State} {c : Instr} {st : Stream} {p : Place} (he : Examines s c st p) :
    p ∈ (getV s.ports st).places := by
  rcases he with ⟨-, ⟨-, h2⟩, -⟩ | ⟨-, -, h, -, -, h4⟩
  · exact (nextRequest_mem h2).1
  · exact (place?_mem h4).1

end Sys2Proof.Machine
end

