-- ==== Sys2Proof/Laws/PerInstr.lean ====
section
/-! SUPPORT. What well-formedness says of the operands of each command. -/

namespace Sys2Proof.Laws

/-- A well-formed command's operands are what the ports can carry: a request of 1 to 128 bytes (R43), a completion of at
most 128 bytes (R136), a command code that is none of the nine known ones (R187). -/
def Operands.Statement (i : Instr) : Prop :=
  i.wf = true →
    (∀ r, i = .requestTake r → 1 ≤ r.op.length ∧ r.op.length ≤ 128)
      ∧ (∀ data, i = .passThroughCompletion (.ok data) ∨ i = .homeReadDataReturn (.ok data)
          ∨ i = .anchorReadCompletion (.ok data) ∨ i = .scanReadCompletion (.ok data)
          ∨ i = .walkReadCompletion (.ok data) ∨ i = .digestReadCompletion (.ok data) → data.length ≤ 128)
      ∧ ∀ code, i = .unknownCommand code → code = 0 ∨ 9 < code.toNat

/-- The statement holds of every command. -/
theorem Operands.holds (i : Instr) : Operands.Statement i := by
  have carried (c : Completion) (h : c.wf = true) (data : List Byte) (e : c = .ok data) : data.length ≤ 128 := by
    subst e; simpa [Completion.wf] using h
  cases i <;> simp +contextual [Operands.Statement, Instr.wf, Request.wf, Op.wf, unknownCode]
  all_goals exact carried _

theorem Operands.resetAssert : Operands.Statement .resetAssert :=
  Operands.holds _

theorem Operands.resetRelease (abase : BitVec 4) : Operands.Statement (.resetRelease abase) :=
  Operands.holds _

theorem Operands.powerLoss : Operands.Statement .powerLoss :=
  Operands.holds _

theorem Operands.requestTake (r : Request) : Operands.Statement (.requestTake r) :=
  Operands.holds _

theorem Operands.admission (s : Stream) : Operands.Statement (.admission s) :=
  Operands.holds _

theorem Operands.reExamination (s : Stream) : Operands.Statement (.reExamination s) :=
  Operands.holds _

theorem Operands.holdExpiry (s : Stream) : Operands.Statement (.holdExpiry s) :=
  Operands.holds _

theorem Operands.memoryGrant : Operands.Statement .memoryGrant :=
  Operands.holds _

theorem Operands.recordIssue : Operands.Statement .recordIssue :=
  Operands.holds _

theorem Operands.capture : Operands.Statement .capture :=
  Operands.holds _

theorem Operands.passThroughGrant : Operands.Statement .passThroughGrant :=
  Operands.holds _

theorem Operands.homeWriteIssue : Operands.Statement .homeWriteIssue :=
  Operands.holds _

theorem Operands.checkpointIssue : Operands.Statement .checkpointIssue :=
  Operands.holds _

theorem Operands.serviceRequestGrant : Operands.Statement .serviceRequestGrant :=
  Operands.holds _

theorem Operands.rewriteIssue : Operands.Statement .rewriteIssue :=
  Operands.holds _

theorem Operands.recordAcknowledgement : Operands.Statement .recordAcknowledgement :=
  Operands.holds _

theorem Operands.recordFailure : Operands.Statement .recordFailure :=
  Operands.holds _

theorem Operands.rewriteAcknowledgement (st : MemStatus) : Operands.Statement (.rewriteAcknowledgement st) :=
  Operands.holds _

theorem Operands.startOfApply : Operands.Statement .startOfApply :=
  Operands.holds _

theorem Operands.homeWriteAcknowledgement : Operands.Statement .homeWriteAcknowledgement :=
  Operands.holds _

theorem Operands.applyFailure : Operands.Statement .applyFailure :=
  Operands.holds _

theorem Operands.checkpointAcknowledgement : Operands.Statement .checkpointAcknowledgement :=
  Operands.holds _

theorem Operands.checkpointFailure (second : MemStatus) : Operands.Statement (.checkpointFailure second) :=
  Operands.holds _

theorem Operands.passThroughCompletion (c : Completion) : Operands.Statement (.passThroughCompletion c) :=
  Operands.holds _

theorem Operands.homeReadDataReturn (c : Completion) : Operands.Statement (.homeReadDataReturn c) :=
  Operands.holds _

theorem Operands.drainCompletion : Operands.Statement .drainCompletion :=
  Operands.holds _

theorem Operands.anchorReadCompletion (c : Completion) : Operands.Statement (.anchorReadCompletion c) :=
  Operands.holds _

theorem Operands.scanReadCompletion (c : Completion) : Operands.Statement (.scanReadCompletion c) :=
  Operands.holds _

theorem Operands.walkReadCompletion (c : Completion) : Operands.Statement (.walkReadCompletion c) :=
  Operands.holds _

theorem Operands.replayWriteCompletion (st : MemStatus) : Operands.Statement (.replayWriteCompletion st) :=
  Operands.holds _

theorem Operands.formatAnchorWriteCompletion (st : MemStatus) : Operands.Statement (.formatAnchorWriteCompletion st) :=
  Operands.holds _

theorem Operands.digestReadCompletion (c : Completion) : Operands.Statement (.digestReadCompletion c) :=
  Operands.holds _

theorem Operands.quiesce : Operands.Statement .quiesce :=
  Operands.holds _

theorem Operands.resume : Operands.Statement .resume :=
  Operands.holds _

theorem Operands.discardOpen : Operands.Statement .discardOpen :=
  Operands.holds _

theorem Operands.clearFault : Operands.Statement .clearFault :=
  Operands.holds _

theorem Operands.restart : Operands.Statement .restart :=
  Operands.holds _

theorem Operands.format : Operands.Statement .format :=
  Operands.holds _

theorem Operands.digest : Operands.Statement .digest :=
  Operands.holds _

theorem Operands.abortDigest : Operands.Statement .abortDigest :=
  Operands.holds _

theorem Operands.stageFromActive : Operands.Statement .stageFromActive :=
  Operands.holds _

theorem Operands.unknownCommand (code : Byte) : Operands.Statement (.unknownCommand code) :=
  Operands.holds _

theorem Operands.eventPop : Operands.Statement .eventPop :=
  Operands.holds _

theorem Operands.intEnableWrite (value : Word) : Operands.Statement (.intEnableWrite value) :=
  Operands.holds _

theorem Operands.lostClear : Operands.Statement .lostClear :=
  Operands.holds _

theorem Operands.profileDataWrite (w : Fin 4) (value : Word) : Operands.Statement (.profileDataWrite w value) :=
  Operands.holds _

theorem Operands.registerWrite (n : FrameEvent) (value : Word) : Operands.Statement (.registerWrite n value) :=
  Operands.holds _

theorem Operands.anchorFirstHalfCompletion (st : MemStatus) : Operands.Statement (.anchorFirstHalfCompletion st) :=
  Operands.holds _

end Sys2Proof.Laws
end

