-- ==== Sys2Proof/Tests/Slice0.lean ====
section
/-! SUPPORT. The model's own tests: ill-formed terms, small steps on small states, and for every statement with hypotheses a
concrete state and operands that meet them all. -/

namespace Sys2Proof.Machine

set_option Elab.async false

/-! ### Well-formedness refuses what cannot be -/

theorem test_wf_request_length_bounds :
    Request.wf ⟨0, 0, 0, .read 1⟩ = true ∧ Request.wf ⟨0, 0, 0, .read 128⟩ = true
      ∧ Request.wf ⟨0, 0, 0, .read 0⟩ = false ∧ Request.wf ⟨0, 0, 0, .read 129⟩ = false
      ∧ Request.wf ⟨0, 0, 0, .write []⟩ = false := by decide

theorem test_wf_refuses_empty_request : Instr.wf (.requestTake ⟨0, 0, 0, .read 0⟩) = false := by decide

theorem test_wf_refuses_long_completions :
    (∀ c ∈ [Instr.passThroughCompletion, .homeReadDataReturn, .anchorReadCompletion, .scanReadCompletion,
        .walkReadCompletion, .digestReadCompletion],
      (c (.ok (List.replicate 129 0))).wf = false ∧ (c (.ok (List.replicate 128 0))).wf = true) := by decide +kernel

theorem test_wf_refuses_known_code :
    Instr.wf (.unknownCommand 1) = false ∧ Instr.wf (.unknownCommand 9) = false
      ∧ Instr.wf (.unknownCommand 0) = true ∧ Instr.wf (.unknownCommand 10) = true := by decide

theorem test_no_word_spells_a_command : decodeTableWord 32 1 = none := rfl

theorem test_crc_check_value : crc32 [0x31, 0x32, 0x33, 0x34, 0x35, 0x36, 0x37, 0x38, 0x39] = 0xCBF43926#32 := by
  decide +kernel

/-! ### Small states -/

/-- `Live`, checked. -/
def liveCheck (s : State) : Bool :=
  s.run = .running && allStreams.all fun st => (getV s.ports st).places.head?.all fun p =>
    match p.phase with
    | .ready _ => false
    | _ => true

theorem mem_allStreams (st : Stream) : st ∈ allStreams := by revert st; decide

theorem live_of_check {s : State} (h : liveCheck s = true) : Live s := by
  simp only [liveCheck, Bool.and_eq_true, decide_eq_true_eq, List.all_eq_true] at h
  refine ⟨h.1, fun st p hp status hr => ?_⟩
  have := h.2 st (mem_allStreams st)
  rw [hp] at this
  simp [hr] at this

/-- The state a command leads to. -/
def after (c : Instr) (s : State) : Option State :=
  match exec c s with
  | .next t => some t
  | .fault _ => none
  | .refused _ => none

/-- One region of 64 KiB at 0x100000 in which streams 0, 1 and 3 may write, and the words of streams 0 and 1. -/
def tRegion : Region := { enabled := true, base := 0x100000, sizeExp := 16, mask := 0x0B }

def tStream (commit cancel : Addr) (limit : BitVec 7) : StreamEntry :=
  { enabled := true, commitWord := commit, cancelPresent := true, cancelWord := cancel, entryLimit := limit }

def tProfile : Profile :=
  { regions := setV (Vector.replicate 6 Region.disabled) 0 tRegion
    streams := setV (setV (Vector.replicate 8 StreamEntry.disabled) 0 (tStream 0x100000 0x200000 2)) 1
      (tStream 0x100008 0x200008 64)
    holdLimit := 100, openReserve := 24 }

/-- A part in this engine state, with the profile active, a format of 1024 records, nothing going on. -/
def tState (e : EngineState) : State :=
  { State.reset with
    profile := some tProfile
    journal := JournalWriter.cleared (some ⟨0, 7⟩)
    service := { ServiceEngine.cleared none with recovery := { Recovery.empty with phase := none } }
    engine := { State.reset.engine with state := e, staging := tProfile } }

/-- ONLINE. -/
def onl : State := tState .online

/-- FAULTED with these causes. -/
def faulted (causes : List FaultCause) : State :=
  { tState .faulted with engine := { (tState .faulted).engine with causes := causes, firstCause := causes.head?, returnState := some .online } }

/-- A write of these bytes. -/
def wr (st : Stream) (addr : Addr) (bytes : List (Option Byte)) : Request := ⟨st, 0, addr, .write bytes⟩

def rd (st : Stream) (addr : Addr) (n : Nat) : Request := ⟨st, 1, addr, .read n⟩

def tPlace (r : Request) (ph : Phase) : Place := { index := 0, request := r, phase := ph, buffer := none }

/-- The part with these places in the stream's queue. -/
def State.placing (s : State) (st : Stream) (ps : List Place) : State :=
  { s with ports := setV s.ports st { places := ps, nextIndex := 1 } }

/-- The part with one request of stream `r.stream` taken and not yet admitted. -/
def State.offered (s : State) (r : Request) : State := s.placing r.stream [tPlace r .waiting]

/-- The part with the stream's write held, and `due` re-examinations owed. -/
def State.holding (s : State) (r : Request) (kind : HoldKind) (waits : List Stream) (due : Nat) : State :=
  { s.placing r.stream [tPlace r .held] with
    holds := setV s.holds r.stream (some { place := 0, kind := kind, deadline := some 100, waitSet := waits, due := due }) }

/-- A group of one slot. -/
def tGroup (st : Stream) (state : GroupState) (slot : SlotId) : Group :=
  { ref := slot.val, number := 5, stream := st, state := state, entries := [slot], recordCount := 1, firstRecord := none,
    commitNumber := none, commitResponse := none }

/-- The part in which stream `st` has an OPEN group that holds line `l` in slot 0. -/
def State.withOpen (s : State) (st : Stream) (l : Line) : State :=
  { s with
    groups := { s.groups with opens := setV s.groups.opens st (some (tGroup st .open 0)), nextRef := 1 }
    pool := { slots := setV s.pool.slots 0 (some { line := l, cells := List.replicate 32 (some 9), group := 0 })
              free := s.pool.free.tail }
    index := [{ line := l, owner := some st, sealedPart := [], unsealedPart := [], openPart := some 0 }]
    journal := { s.journal with queue := [{ kind := .entry 0, group := 0 }] } }

/-- The part with this outstanding request alone on the memory port. -/
def State.awaiting (s : State) (p : Purpose) (r : MemRequest) : State :=
  { s with mem := { s.mem with outstanding := [{ purpose := p, request := r, live := true }] } }

def tWrite : MemRequest := { addr := 0, op := .write [some 1] }

def tEntry (p : Purpose) (r : MemRequest) : MemEntry := { purpose := p, request := r, live := true }

theorem awaits_awaiting {s : State} (p : Purpose) (r : MemRequest) (h : s.mem.draining = false) :
    Awaits (s.awaiting p r) (tEntry p r) [] := ⟨rfl, rfl, h⟩

/-! ### Witnesses: the step, the pins, the request port -/

theorem test_premises_StepRunsFrontCommand : State.reset.pending = [] := rfl

theorem test_premises_StoppedPartDoesNothing :
    Instr.wf .quiesce = true ∧ Instr.isPin .quiesce = false
      ∧ State.run { State.reset with run := .inReset } ≠ .running ∧ State.run { State.reset with run := .powerOff } ≠ .running := by
  decide

theorem test_premises_EventsAnswerAndKeepPins :
    Instr.wf .quiesce = true ∧ (∃ t, exec .quiesce State.reset = .next t) ∧ Instr.isPin .quiesce = false :=
  ⟨rfl, ⟨_, rfl⟩, rfl⟩

theorem test_unfit_data_stops :
    ∃ e, Awaits (onl.awaiting (.passThrough 0 0) ⟨0, .read 2⟩) e [] ∧ Carries (.passThroughCompletion (.ok [1])) (.ok [1])
      ∧ e.request.fits (.ok [1]) = false
      ∧ exec (.passThroughCompletion (.ok [1])) (onl.awaiting (.passThrough 0 0) ⟨0, .read 2⟩) = .fault .memoryPromiseBroken :=
  ⟨tEntry (.passThrough 0 0) ⟨0, .read 2⟩, awaits_awaiting _ _ rfl, .inl rfl, by decide +kernel, rfl⟩

/-- Four places of stream 0. -/
def fourPlaces : List Place :=
  [0, 1, 2, 3].map fun i => { index := i, request := rd 0 0x300000 8, phase := .passed, buffer := none }

theorem test_premises_RequestTakeAndBlocking_take :
    Live (onl.placing 0 (fourPlaces.take 3)) ∧ (rd 0 0x300000 128).wf = true
      ∧ (onl.placing 0 (fourPlaces.take 3)).engine.state ≠ .recovering
      ∧ (onl.placing 0 (fourPlaces.take 3)).mgmt.running ≠ some .format ∧ (onl.placing 0 (fourPlaces.take 3)).taken 0 < 4 :=
  ⟨live_of_check (by decide +kernel), by decide +kernel⟩

theorem test_premises_RequestTakeAndBlocking_wait :
    State.reset.engine.state = .recovering
      ∧ (onl.mgmt.runs .format).running = some .format
      ∧ 4 ≤ (onl.placing 0 fourPlaces).taken 0 ∧ (rd 0 0 129).wf = false := by decide +kernel

theorem test_premises_RequestTakeAndBlocking_admission :
    let held := onl.holding (wr 0 0x100020 [some 1]) .space [] 0
    let reading := onl.placing 0 [{ tPlace (rd 0 0x100020 1) .reading with buffer := some (newOverlay (rd 0 0x100020 1)) }]
    held.run = .running ∧ reading.run = .running
      ∧ (∃ q ∈ (getV held.ports 0).places, q.phase = .held)
      ∧ (∃ q ∈ (getV reading.ports 0).places, q.phase = .reading ∧ ∃ b, q.buffer = some b ∧ b.state = .waiting)
      ∧ (∀ q ∈ (getV onl.ports 0).places, q.phase ≠ .waiting) :=
  ⟨rfl, rfl, by decide +kernel, ⟨_, .head _, rfl, _, rfl, rfl⟩, by decide +kernel⟩

theorem test_premises_RequestTakeAndBlocking_reExamination :
    (∀ h, getV (onl.holding (wr 0 0x100020 [some 1]) .space [] 0).holds 0 = some h → h.due = 0)
      ∧ (∀ h, getV (onl.holding (wr 0 0x100020 [some 1]) .space [] 0).holds 0 = some h →
          ∀ d, h.deadline = some d → onl.now < d) := by
  constructor
  · rintro h ⟨⟩; rfl
  · rintro h ⟨⟩ d ⟨⟩; decide

theorem test_premises_EveryRequestIsDecided :
    onl.engine.state ≠ .recovering ∧ (onl.profile = none → onl.engine.state = .unformatted ∨ onl.engine.state = .faulted)
      ∧ (State.reset.profile = none) := ⟨by decide, nofun, rfl⟩

/-! ### Witnesses: examinations -/

/-- The examination of an offered request. -/
theorem examines_offered {s : State} {r : Request} (h : s.engine.state ≠ .recovering) (h' : s.mgmt.running ≠ some .format)
    (hh : getV s.holds r.stream = none) :
    Examines (s.offered r) (.admission r.stream) r.stream (tPlace r .waiting) := by
  refine .inl ⟨rfl, ⟨?_, ?_⟩, hh⟩
  · simp [State.admits, State.offered, State.placing, State.formatRuns, h, h', getV, setV, tPlace, Place.blocks]
  · simp [State.nextRequest, State.offered, State.placing, getV, setV, tPlace]

theorem live_offered {s : State} {r : Request} (h : liveCheck (s.offered r) = true) : Live (s.offered r) := live_of_check h

def outsideRead : Request := rd 0 0x300000 8
def cancelWrite : Request := wr 0 0x200000 [some 1]
def regionRead : Request := rd 0 0x100020 8
def noEnables : Request := wr 0 0x100020 [none, none]
def oneLine : Request := wr 0 0x100020 [some 1]
def commitOnly : Request := wr 0 0x100007 [some 1]

/-- An offered request of stream 0 to the ONLINE part is examined by its admission. -/
theorem admits_onl (r : Request) (h : r.stream = 0) (hl : liveCheck (onl.offered r) = true) :
    Live (onl.offered r) ∧ Examines (onl.offered r) (.admission 0) 0 (tPlace r .waiting)
      ∧ Admissible (onl.offered r) 0 (tPlace r .waiting) := by
  have e := examines_offered (s := onl) (r := r) (by decide) (by decide) (by rw [h]; decide +kernel)
  rw [h] at e
  refine ⟨live_of_check hl, e, ?_⟩
  rcases e with e | e
  · exact e.2.1
  · exact absurd e.1 (by intro x; cases x)

theorem pastFirst_onl (r : Request) (h : r.crossesBlock = false) (h' : onl.touchesJournal r = false) :
    PastFirstTests (onl.offered r) tProfile r := by
  refine ⟨rfl, ?_, ?_, h, h'⟩ <;> exact nofun

theorem test_premises_PassThroughIsHandedOver :
    Live (onl.offered outsideRead) ∧ Examines (onl.offered outsideRead) (.admission 0) 0 (tPlace outsideRead .waiting)
      ∧ PassesAt (onl.offered outsideRead) 0 outsideRead false
      ∧ PassesAt (onl.offered cancelWrite) 0 cancelWrite true ∧ (onl.offered cancelWrite).openGroup? 0 = none :=
  ⟨(admits_onl _ rfl (by decide +kernel)).1, (admits_onl _ rfl (by decide +kernel)).2.1,
    .inr ⟨tProfile, pastFirst_onl _ (by decide +kernel) (by decide +kernel), by decide +kernel, .inl (by decide +kernel)⟩,
    .inr ⟨tProfile, pastFirst_onl _ (by decide +kernel) (by decide +kernel), by decide +kernel, .inr (by decide +kernel)⟩,
    by decide +kernel⟩

/-- The ONLINE part in which stream 0 has an OPEN group on line 0x8002, with a request offered. -/
def openOffered (r : Request) : State := (onl.withOpen 0 0x8002).offered r

theorem test_premises_CancelWriteDiscardsOpenGroup :
    Live (openOffered cancelWrite) ∧ Examines (openOffered cancelWrite) (.admission 0) 0 (tPlace cancelWrite .waiting)
      ∧ PassesAt (openOffered cancelWrite) 0 cancelWrite true
      ∧ (openOffered cancelWrite).openGroup? 0 = some (tGroup 0 .open 0) :=
  ⟨live_of_check (by decide +kernel), examines_offered (by decide) (by decide) (by decide +kernel),
    .inr ⟨tProfile, ⟨rfl, by decide, by decide, by decide +kernel, by decide +kernel⟩, by decide +kernel,
      .inr (by decide +kernel)⟩, by decide +kernel⟩

theorem test_premises_MergedReadsAndZeroEnableWrites :
    Live (onl.offered regionRead) ∧ Admissible (onl.offered regionRead) 0 (tPlace regionRead .waiting)
      ∧ MergedAt (onl.offered regionRead) regionRead
      ∧ Live (onl.offered noEnables) ∧ Examines (onl.offered noEnables) (.admission 0) 0 (tPlace noEnables .waiting)
      ∧ ZeroEnableAt (onl.offered noEnables) noEnables :=
  ⟨(admits_onl _ rfl (by decide +kernel)).1, (admits_onl _ rfl (by decide +kernel)).2.2,
    ⟨tProfile, pastFirst_onl _ (by decide +kernel) (by decide +kernel), by decide +kernel⟩,
    (admits_onl _ rfl (by decide +kernel)).1, (admits_onl _ rfl (by decide +kernel)).2.1,
    ⟨tProfile, pastFirst_onl _ (by decide +kernel) (by decide +kernel), by decide +kernel⟩⟩

/-- The FAULTED part with the recovery-side cause RECOVERY_MISMATCH, or with JOURNAL_WRITE. -/
def mismatched : State := faulted [.recoveryMismatch]
def journalFaulted : State := faulted [.journalWrite]

theorem pastFirst_faulted (causes : List FaultCause) (r : Request) (h : r.crossesBlock = false)
    (h' : onl.touchesJournal r = false) : PastFirstTests ((faulted causes).offered r) tProfile r := by
  refine ⟨rfl, ?_, ?_, h, h'⟩ <;> exact nofun

/-- One witness for each reason an examination declines with. -/
theorem test_premises_DeclinesAndHoldExpiry_reasons :
    DeclinedAt ({ faulted [.recoveryRead] with profile := none }) 0 oneLine .engineFault
      ∧ DeclinedAt (mismatched.offered regionRead) 0 regionRead .engineFault
      ∧ DeclinedAt (journalFaulted.offered oneLine) 0 oneLine .engineFault
      ∧ DeclinedAt onl 0 (rd 0 0x10007F 2) .blockCrossing
      ∧ DeclinedAt onl 0 (rd 0 0x10FFF 1) .journalArea
      ∧ DeclinedAt (onl.offered (wr 2 0x100020 [some 1])) 2 (wr 2 0x100020 [some 1]) .writeDenied
      ∧ DeclinedAt (onl.offered (wr 3 0x100020 [some 1])) 3 (wr 3 0x100020 [some 1]) .streamOff := by
  refine ⟨.inl ⟨rfl, rfl⟩, .inr ⟨rfl, tProfile, pastFirst_faulted _ _ (by decide +kernel) (by decide +kernel),
      .inl (by decide +kernel)⟩,
    .inr ⟨rfl, tProfile, pastFirst_faulted _ _ (by decide +kernel) (by decide +kernel), .inr ⟨tRegion,
      ⟨pastFirst_faulted _ _ (by decide +kernel) (by decide +kernel), by decide +kernel⟩, by decide +kernel⟩⟩,
    ⟨nofun, rfl, by decide +kernel⟩, ⟨nofun, rfl, by decide +kernel, by decide +kernel⟩,
    ⟨tProfile, tRegion, ⟨pastFirst_onl _ (by decide +kernel) (by decide +kernel), by decide +kernel⟩, by decide +kernel⟩,
    ⟨tProfile, tRegion, ⟨pastFirst_onl _ (by decide +kernel) (by decide +kernel), by decide +kernel⟩, by decide +kernel⟩⟩

/-- The write of stream 0 to a line that stream 1 owns, stream 1's own held write waiting on stream 0. -/
def cycleState : State :=
  let s := (onl.withOpen 1 0x8001).offered oneLine
  { s with
    holds := setV s.holds 1 (some { place := 0, kind := .conflict, deadline := none, waitSet := [0], due := 0 }) }

theorem past_of (s : State) (r : Request) (hp : s.profile = some tProfile) (he : s.engine.state = .online)
    (hc : r.crossesBlock = false) (hj : s.touchesJournal r = false) : PastFirstTests s tProfile r :=
  ⟨hp, by rw [he]; exact nofun, by rw [he]; exact nofun, hc, hj⟩

theorem journaled_of (s : State) (st : Stream) (r : Request) (hp : s.profile = some tProfile) (ho : s.engine.state = .online)
    (hc : r.crossesBlock = false ∧ s.touchesJournal r = false ∧ Op.isRead r.op = false ∧ r.hasEnabled = true
      ∧ tProfile.regionAt r.first = some tRegion ∧ tRegion.mask.getLsbD st.val = true
      ∧ (getV tProfile.streams st).enabled = true) : Journaled s tProfile tRegion st r :=
  ⟨⟨past_of s r hp ho hc.1 hc.2.1, hc.2.2.1, hc.2.2.2.1, hc.2.2.2.2.1⟩, hc.2.2.2.2.2.1, hc.2.2.2.2.2.2, .inl ho⟩

theorem test_premises_DeclinesAndHoldExpiry :
    Live cycleState ∧ Examines cycleState (.admission 0) 0 (tPlace oneLine .waiting)
      ∧ DeclinedAt cycleState 0 oneLine .conflictCycle := by
  refine ⟨live_of_check (by decide +kernel), .inl ⟨rfl, ⟨by decide +kernel, by decide +kernel⟩, by decide +kernel⟩,
    tProfile, tRegion, journaled_of _ _ _ rfl rfl (by decide +kernel), ?_⟩
  decide +kernel

theorem test_premises_DeclinesAndHoldExpiry_expiry :
    ∃ s h, Live s ∧ getV s.holds 0 = some h ∧ h.deadline = some 100 ∧ 100 ≤ s.now
      ∧ s.place? 0 h.place = some (tPlace oneLine .held) :=
  ⟨{ onl.holding oneLine .space [] 0 with now := 100 },
    { place := 0, kind := .space, deadline := some 100, waitSet := [], due := 0 }, live_of_check (by decide +kernel),
    by decide +kernel, rfl, by decide +kernel, by decide +kernel⟩

/-! ### Witnesses: holds, overflow, takes -/

/-- The part with the free list emptied (all slots out of sight): short of slots. -/
def noSlots (s : State) : State := { s with pool := { s.pool with free := [] } }

/-- The part whose pipeline is full of SEALED groups of one descriptor each. -/
def fullPipeline (s : State) : State :=
  { s with groups := { s.groups with pipeline := (List.range 32).map fun i => { tGroup 1 .sealed 0 with ref := 100 + i } } }

/-- One witness for each hold kind; SPACE for the open reserve (24 slots free, one new) and for a shortage (no slot free). -/
theorem test_premises_HoldsAndReHolds_kinds :
    HeldAt ((tState .quiesced).offered oneLine) 0 oneLine tProfile [] false .quiesce
      ∧ HeldAt ((tState .quiescing).offered oneLine) 0 oneLine tProfile [] false .quiesce
      ∧ HeldAt ((onl.withOpen 1 0x8001).offered oneLine) 0 oneLine tProfile [1] false .conflict
      ∧ HeldAt ({ onl.offered oneLine with pool := { onl.pool with free := allSlots.take 24 } }) 0 oneLine tProfile [] false .space
      ∧ HeldAt (noSlots (fullPipeline (openOffered oneLine))) 0 oneLine tProfile [] false .space
      ∧ HeldAt (fullPipeline (onl.offered commitOnly)) 0 commitOnly tProfile [] false .pipeline := by
  refine ⟨⟨rfl, rfl, tRegion, ⟨⟨rfl, nofun, nofun, by decide +kernel, by decide +kernel⟩, by decide +kernel⟩, by decide +kernel⟩,
    ⟨rfl, rfl, tRegion, ⟨⟨rfl, nofun, nofun, by decide +kernel, by decide +kernel⟩, by decide +kernel⟩, by decide +kernel⟩,
    ⟨by decide +kernel, rfl, tRegion, journaled_of _ _ _ rfl rfl (by decide +kernel), by decide +kernel⟩,
    ⟨rfl, tRegion, journaled_of _ _ _ rfl rfl (by decide +kernel), (by unfold ConflictFree; decide +kernel), by decide +kernel,
      .inl ⟨by unfold BelowReserve; decide +kernel, rfl⟩⟩,
    ⟨rfl, tRegion, journaled_of _ _ _ rfl rfl (by decide +kernel), (by unfold ConflictFree; decide +kernel), by decide +kernel,
      .inr ⟨by unfold BelowReserve; decide +kernel, by decide +kernel⟩⟩,
    ⟨rfl, rfl, tRegion, journaled_of _ _ _ rfl rfl (by decide +kernel), (by unfold ConflictFree; decide +kernel),
      (by unfold WithinLimits; decide +kernel), (by unfold NotShort; decide +kernel), by decide +kernel⟩⟩

theorem test_premises_HoldsAndReHolds :
    Live ((tState .quiesced).offered oneLine) ∧ Admissible ((tState .quiesced).offered oneLine) 0 (tPlace oneLine .waiting)
      ∧ getV ((tState .quiesced).offered oneLine).holds 0 = none
      ∧ ∃ h, Live ((tState .quiesced).holding oneLine .quiesce [] 1)
          ∧ ((tState .quiesced).holding oneLine .quiesce [] 1).mgmt.running ≠ some .format
          ∧ getV ((tState .quiesced).holding oneLine .quiesce [] 1).holds 0 = some h ∧ 0 < h.due
          ∧ ((tState .quiesced).holding oneLine .quiesce [] 1).place? 0 h.place = some (tPlace oneLine .held)
          ∧ HeldAt ((tState .quiesced).holding oneLine .quiesce [] 1) 0 oneLine tProfile [] false .quiesce :=
  ⟨live_of_check (by decide +kernel), ⟨by decide +kernel, by decide +kernel⟩, by decide +kernel,
    { place := 0, kind := .quiesce, deadline := some 100, waitSet := [], due := 1 }, live_of_check (by decide +kernel), nofun,
    by decide +kernel, by decide, by decide +kernel, rfl, rfl, tRegion,
    ⟨⟨rfl, nofun, nofun, by decide +kernel, by decide +kernel⟩, by decide +kernel⟩, by decide +kernel⟩

/-- A write to three lines, one more than stream 0's entry limit of 2. -/
def threeLines : Request := wr 0 0x10001F (List.replicate 34 (some 1))

/-- The part with stream 0's group as it is, no slot free and nothing that would relieve it. -/
def hopeless : State := noSlots (openOffered oneLine)

theorem test_premises_GroupLimitAndOverflowDiscard :
    Live (onl.offered threeLines) ∧ Examines (onl.offered threeLines) (.admission 0) 0 (tPlace threeLines .waiting)
      ∧ OverflowsAt (onl.offered threeLines) 0 threeLines .groupLimit ∧ (onl.offered threeLines).openGroup? 0 = none
      ∧ Live hopeless ∧ Examines hopeless (.admission 0) 0 (tPlace oneLine .waiting)
      ∧ OverflowsAt hopeless 0 oneLine .overflow ∧ hopeless.openGroup? 0 = some (tGroup 0 .open 0) :=
  ⟨(admits_onl _ rfl (by decide +kernel)).1, (admits_onl _ rfl (by decide +kernel)).2.1,
    ⟨tProfile, tRegion, journaled_of _ _ _ rfl rfl (by decide +kernel), (by unfold ConflictFree; decide +kernel),
      by decide +kernel⟩, by decide +kernel, live_of_check (by decide +kernel),
    .inl ⟨rfl, ⟨by decide +kernel, by decide +kernel⟩, by decide +kernel⟩,
    ⟨tProfile, tRegion, journaled_of _ _ _ rfl rfl (by decide +kernel), (by unfold ConflictFree; decide +kernel),
      (by unfold WithinLimits; decide +kernel), (by unfold NotShort; decide +kernel), by decide +kernel⟩, by decide +kernel⟩

/-- A write to two lines, stream 0's entry limit. -/
def twoLines : Request := wr 0 0x10001F [some 1, some 2]

theorem freeList_onl (r : Request) : FreeListLaw (onl.offered r) := by
  have h : FreeListLaw onl := by unfold FreeListLaw; decide +kernel
  exact h

theorem test_premises_WriteIsTaken :
    Live (onl.offered twoLines) ∧ FreeListLaw (onl.offered twoLines) ∧ IndexLaw (onl.offered twoLines)
      ∧ Examines (onl.offered twoLines) (.admission 0) 0 (tPlace twoLines .waiting)
      ∧ TakenAt (onl.offered twoLines) 0 twoLines false
      ∧ TakenAt (openOffered oneLine) 0 oneLine false :=
  ⟨(admits_onl _ rfl (by decide +kernel)).1, freeList_onl _, ⟨.nil, nofun⟩, (admits_onl _ rfl (by decide +kernel)).2.1,
    ⟨tProfile, tRegion, journaled_of _ _ _ rfl rfl (by decide +kernel), by decide +kernel,
      (by unfold ConflictFree; decide +kernel), (by unfold WithinLimits; decide +kernel), (by unfold NotShort; decide +kernel)⟩,
    ⟨tProfile, tRegion, journaled_of _ _ _ rfl rfl (by decide +kernel), by decide +kernel,
      (by unfold ConflictFree; decide +kernel), (by unfold WithinLimits; decide +kernel), (by unfold NotShort; decide +kernel)⟩⟩

theorem test_premises_CommitWriteSealsItsGroup :
    Live (onl.offered commitOnly) ∧ FreeListLaw (onl.offered commitOnly) ∧ IndexLaw (onl.offered commitOnly)
      ∧ Examines (onl.offered commitOnly) (.admission 0) 0 (tPlace commitOnly .waiting)
      ∧ TakenAt (onl.offered commitOnly) 0 commitOnly true :=
  ⟨(admits_onl _ rfl (by decide +kernel)).1, freeList_onl _, ⟨.nil, nofun⟩, (admits_onl _ rfl (by decide +kernel)).2.1,
    ⟨tProfile, tRegion, journaled_of _ _ _ rfl rfl (by decide +kernel), by decide +kernel,
      (by unfold ConflictFree; decide +kernel), (by unfold WithinLimits; decide +kernel), (by unfold NotShort; decide +kernel)⟩⟩

/-- A re-examined write is examined too. -/
theorem test_premises_Examines_reExamination :
    Examines (onl.holding oneLine .space [] 1) (.reExamination 0) 0 (tPlace oneLine .held)
      ∧ TakenAt (onl.holding oneLine .space [] 1) 0 oneLine false :=
  ⟨.inr ⟨rfl, by decide +kernel, _, rfl, by decide, by decide +kernel⟩,
    ⟨tProfile, tRegion, journaled_of _ _ _ rfl rfl (by decide +kernel), by decide +kernel,
      (by unfold ConflictFree; decide +kernel), (by unfold WithinLimits; decide +kernel), (by unfold NotShort; decide +kernel)⟩⟩

/-! ### Witnesses: the grants -/

/-- The ONLINE part with an ENTRY record at the front of its queue. -/
def recordFront : State := onl.withOpen 0 0x8002

/-- The part with a group of stream 0 in this state at the head of the pipeline, its line 0x8002 in slot 0. -/
def State.withPipeline (s : State) (state : GroupState) : State :=
  { s with
    groups := { s.groups with pipeline := [{ tGroup 0 state 0 with commitNumber := some 1 }], nextRef := 1 }
    pool := { slots := setV s.pool.slots 0 (some { line := 0x8002, cells := List.replicate 32 (some 9), group := 0 })
              free := s.pool.free.tail } }

def tApply (next out acked : Nat) (stopped : Bool) : ApplyRecord :=
  { group := 0, nextPos := next, outstanding := out, acked := acked, stopped := stopped }

/-- The part with its head group APPLYING and nothing issued. -/
def applying : State := { onl.withPipeline .applying with apply := some (tApply 0 0 0 false) }

/-- The same with 24 slots free, the open reserve. -/
def reserveLow : State := { applying with pool := { applying.pool with free := allSlots.take 24 } }

/-- The part with a request of the request path waiting for its grant. -/
def pathWaiting (merged : Bool) : State :=
  let s := onl.placing 0 [{ tPlace regionRead .reading with buffer := some (newOverlay regionRead) }]
  { s with mem := { s.mem with path := [{ stream := 0, place := 0, merged := merged, request := ⟨0x100020, .read 8⟩ }] } }

/-- The part with a checkpoint wanted. -/
def ckptWanted : State :=
  { onl with ckpt := { onl.ckpt with pending := true }, service := { onl.service with readyOrder := [.checkpoint] } }

/-- The FAULTED part in the journal step of CLEAR_FAULT with one failed record. -/
def rewriting : State :=
  let s := journalFaulted.withPipeline .inDoubt
  { s with
    journal := { s.journal with failed := [{ seq := 3, kind := .entry 0, group := 0 }] }
    engine := { s.engine with clear := some (.journal false) }
    mgmt := s.mgmt.runs .clearFault }

/-- The part with 16 requests outstanding. -/
def fullList : State := { onl with mem := { onl.mem with outstanding := List.replicate 16 (tEntry .record tWrite) } }

theorem test_premises_ArbiterRotates :
    16 ≤ fullList.mem.outstanding.length
      ∧ (∀ r, onl.eligible r = false)
      ∧ (reserveLow.mem.draining = false ∧ reserveLow.mem.outstanding.length < 16 ∧ reserveLow.reservePrecedence = true
          ∧ reserveLow.eligible .applyEngine = true)
      ∧ (applying.mem.draining = false ∧ applying.mem.outstanding.length < 16 ∧ applying.reservePrecedence = false
          ∧ rotationAfter applying.mem.pointer = [.journalWriter] ++ .applyEngine :: [.requestPath, .serviceEngine]
          ∧ applying.eligible .journalWriter = false ∧ applying.eligible .applyEngine = true)
      ∧ Granted applying .applyEngine true ∧ applying.run = .running :=
  ⟨by decide +kernel, by intro r; cases r <;> decide +kernel, by decide +kernel, by decide +kernel, by unfold Granted; decide +kernel, rfl⟩

theorem test_premises_GrantRowsAreMemoryGrant :
    (recordFront.chosen = some .journalWriter ∧ recordFront.recordReady = true)
      ∧ (rewriting.chosen = some .journalWriter ∧ rewriting.recordReady = false)
      ∧ applying.chosen = some .applyEngine
      ∧ ((pathWaiting true).chosen = some .requestPath ∧ (pathWaiting true).pathMerged = some true)
      ∧ ((pathWaiting false).chosen = some .requestPath ∧ (pathWaiting false).pathMerged = some false)
      ∧ (ckptWanted.chosen = some .serviceEngine ∧ ckptWanted.presentsCheckpoint = true)
      ∧ (State.reset.chosen = some .serviceEngine ∧ State.reset.presentsCheckpoint = false) := by decide +kernel

theorem test_premises_RecordIssueTakesTheHead :
    onl.journal.format = some ⟨0, 7⟩ ∧ recordFront.slot 0 = some { line := 0x8002, cells := List.replicate 32 (some 9), group := 0 }
      ∧ (∃ g : Group, g.commitNumber = some 1)
      ∧ Live recordFront ∧ Granted recordFront .journalWriter true ∧ recordFront.recordReady = true
      ∧ recordFront.journal.queue = [{ kind := .entry 0, group := 0 }] ∧ recordFront.findGroup 0 = some (tGroup 0 .open 0) :=
  ⟨rfl, by decide +kernel, ⟨{ tGroup 0 .sealing 0 with commitNumber := some 1 }, rfl⟩, live_of_check (by decide +kernel),
    (by unfold Granted; decide +kernel), by decide +kernel⟩

/-- The same with the rewrite outstanding. -/
def rewriteOut (failed : List IssuedRecord) : State :=
  let s := rewriting.awaiting .rewrite tWrite
  { s with journal := { s.journal with failed := failed }, engine := { s.engine with clear := some (.journal true) } }

theorem test_premises_FailedListIsRewritten :
    (Live rewriting ∧ Granted rewriting .journalWriter true ∧ rewriting.recordReady = false
      ∧ rewriting.journal.failed = [{ seq := 3, kind := .entry 0, group := 0 }])
      ∧ ∃ s, Live s ∧ Awaits s (tEntry .rewrite tWrite) []
          ∧ s.journal.failed = { seq := 3, kind := .entry 0, group := 0 } :: [{ seq := 4, kind := .filler, group := 0 }]
          ∧ s.engine.clear = some (.journal true) ∧ s.mgmt.running = some .clearFault ∧ s.ckpt.rewrite = none :=
  ⟨⟨live_of_check (by decide +kernel), (by unfold Granted; decide +kernel), by decide +kernel⟩,
    rewriteOut [{ seq := 3, kind := .entry 0, group := 0 }, { seq := 4, kind := .filler, group := 0 }],
    live_of_check (by decide +kernel), ⟨rfl, rfl, rfl⟩, by decide +kernel⟩

theorem test_premises_HomeWriteAndRequestPathGrants :
    (Live applying ∧ Granted applying .applyEngine true ∧ applying.apply = some (tApply 0 0 0 false)
      ∧ applying.findGroup 0 = some { tGroup 0 .applying 0 with commitNumber := some 1 }
      ∧ (tGroup 0 .applying 0).entries[0]? = some 0 ∧ (applying.slot 0).isSome)
      ∧ (Live (pathWaiting false) ∧ Granted (pathWaiting false) .requestPath true)
      ∧ (Live (pathWaiting true) ∧ Granted (pathWaiting true) .requestPath true) :=
  ⟨⟨live_of_check (by decide +kernel), (by unfold Granted; decide +kernel), by decide +kernel⟩,
    ⟨live_of_check (by decide +kernel), (by unfold Granted; decide +kernel)⟩,
    ⟨live_of_check (by decide +kernel), (by unfold Granted; decide +kernel)⟩⟩

/-- Slot 0 alone is filled, with 32 cells. -/
theorem test_premises_CaptureTakesTheNewestVisibleByte : ∀ id x, recordFront.slot id = some x → x.cells.length = 32 := by
  have h : ∀ id, (recordFront.slot id).all (·.cells.length = 32) = true := by decide +kernel
  intro id x hx
  simpa [hx] using h id

theorem test_premises_CheckpointIssueFormsTheAnchor :
    Live ckptWanted ∧ Granted ckptWanted .serviceEngine true ∧ ckptWanted.presentsCheckpoint = true
      ∧ ckptWanted.journal.format = some ⟨0, 7⟩ ∧ ckptWanted.ckpt.request ≠ some .resume ∧ ckptWanted.profile = some tProfile :=
  ⟨live_of_check (by decide +kernel), (by unfold Granted; decide +kernel), by decide +kernel⟩

def tAnchor : Anchor :=
  { stamp := 7, code := 0, number := 3, tail := 5, through := 1, nextGroup := 9, nextCommit := 2, profile := tProfile }

def tFlight (answers : Option CheckpointRequest) (first : Option MemStatus) (second : Bool) : Flight :=
  { copy := .b, anchor := tAnchor, answers := answers, first := first, secondGranted := second }

/-- The part presenting this work of the Service Engine. -/
def State.presenting (s : State) (w : ServiceWork) : State := { s with service := { s.service with readyOrder := [w] } }

def flightHalf : State := { onl with ckpt := { onl.ckpt with inFlight := some (tFlight none none false) } }.presenting .checkpoint

/-- FORMAT's checks passed, nothing written; the DIGEST of two blocks begun. -/
def tFormat (granted acked : Nat) : FormatWork := { code := 0, stamp := 8, checked := true, granted := granted, acked := acked }

def formatting (granted acked : Nat) : State :=
  let s := tState .unformatted
  { s with
    engine := { s.engine with activation := some tProfile }
    mgmt := s.mgmt.runs .format
    service := { s.service with format := some (tFormat granted acked), readyOrder := [.format] } }

def tDigest : DigestRecord := { crc := crcStart, start := 0x300000, next := 0x300000, stop := 0x300100, processed := 0 }

def digesting : State :=
  let s := tState .quiesced
  { s with
    mgmt := s.mgmt.runs .digest
    service := { s.service with digest := some tDigest, readyOrder := [.digest] } }

/-- RECOVERING in this phase, the anchor loaded. -/
def recovering (phase : RecoveryPhase) (h : Option Word) : State :=
  let s := tState .recovering
  { s with service := { s.service with
      recovery := { Recovery.empty with phase := some phase, scannedHead := h, tail := 5, cursor := 6, through := 1 }
      readyOrder := [.recovery] } }

def tReplay (writing : Bool) : Replay :=
  { seq := 8, stream := 0, entryCount := 1, slotCount := 1, cursor := 5, matched := 1, writing := writing, nextPos := 0, acked := 0 }

/-- RECOVERING with a group of stream 0 in replay, its line collected in slot 0. -/
def replaying (p : Replay) : State :=
  let s := (recovering .replay (some 9)).withPipeline .applying
  { s with
    groups := { s.groups with pipeline := [], replaying := some { tGroup 0 .applying 0 with commitNumber := some 2 } }
    service := { s.service with replay := some p } }

theorem test_premises_ServiceEngineGrants :
    (Live flightHalf ∧ Granted flightHalf .serviceEngine true ∧ flightHalf.presentedWork = some .checkpoint)
      ∧ (Live State.reset ∧ Granted State.reset .serviceEngine true ∧ State.reset.presentedWork = some .recovery
          ∧ State.reset.recoveryRequest = some (.anchorRead, ⟨0, .read 128⟩))
      ∧ (Live (formatting 0 0) ∧ Granted (formatting 0 0) .serviceEngine true
          ∧ (formatting 0 0).presentedWork = some .format ∧ (formatting 0 0).formatRequest.isSome
          ∧ (formatting 2 1).formatRequest.isNone ∧ (formatting 2 2).formatRequest.isSome)
      ∧ (Live digesting ∧ Granted digesting .serviceEngine true ∧ digesting.presentedWork = some .digest
          ∧ tDigest.next < tDigest.stop ∧ digesting.liveCount Purpose.isDigestRead < 8)
      ∧ ((recovering .scan none).mem.draining = false ∧ (recovering .scan none).journal.format = some ⟨0, 7⟩
          ∧ (6 - 5 : Word).toNat < Machine.ringSize 0 ∧ (recovering .scan none).outstandingOf .serviceEngine < 8)
      ∧ ((replaying (tReplay true)).groups.replaying.isSome ∧ ((replaying (tReplay true)).slot 0).isSome
          ∧ (replaying (tReplay true)).liveCount Purpose.isReplayWrite < 4) :=
  ⟨⟨live_of_check (by decide +kernel), (by unfold Granted; decide +kernel), by decide +kernel⟩,
    ⟨live_of_check (by decide +kernel), (by unfold Granted; decide +kernel), by decide +kernel⟩,
    ⟨live_of_check (by decide +kernel), (by unfold Granted; decide +kernel), by decide +kernel⟩,
    ⟨live_of_check (by decide +kernel), (by unfold Granted; decide +kernel), by decide +kernel⟩,
    by decide +kernel, by decide +kernel⟩

/-! ### Witnesses: completions -/

/-- The part with this record issued and outstanding. -/
def recordOut (s : State) (kind : RecordKind) : State :=
  let s := s.awaiting .record tWrite
  { s with journal := { s.journal with queue := [], outstanding := [{ seq := 0, kind := kind, group := 0 }] } }

/-- A commit write whose group's COMMIT is outstanding. -/
def commitOut : State :=
  (recordOut (onl.withPipeline .sealing) .commit).placing 0 [tPlace commitOnly (.withheld 0)]

theorem test_premises_RecordAcknowledgementSealsAndCounts :
    (Live (recordOut recordFront (.entry 0)) ∧ Awaits (recordOut recordFront (.entry 0)) (tEntry .record tWrite) []
      ∧ (recordOut recordFront (.entry 0)).journal.outstanding = [{ seq := 0, kind := .entry 0, group := 0 }]
      ∧ (recordOut recordFront (.entry 0)).engine.clear = none)
      ∧ Live commitOut ∧ Awaits commitOut (tEntry .record tWrite) []
      ∧ commitOut.journal.outstanding = [{ seq := 0, kind := .commit, group := 0 }]
      ∧ commitOut.findGroup 0 = some { tGroup 0 .sealing 0 with commitNumber := some 1 } ∧ commitOut.engine.clear = none
      ∧ tPlace commitOnly (.withheld 0) ∈ (getV commitOut.ports 0).places :=
  ⟨⟨live_of_check (by decide +kernel), ⟨rfl, rfl, rfl⟩, by decide +kernel⟩, live_of_check (by decide +kernel), ⟨rfl, rfl, rfl⟩,
    by decide +kernel⟩

theorem test_premises_RecordFailureFaults :
    Live commitOut ∧ Awaits commitOut (tEntry .record tWrite) [] ∧ commitOut.engine.state = .online
      ∧ ∃ s h p, Live s ∧ Awaits s (tEntry .record tWrite) [] ∧ s.journal.outstanding = [{ seq := 0, kind := .entry 0, group := 0 }]
          ∧ s.engine.state = .online ∧ getV s.holds 1 = some h ∧ s.place? 1 h.place = some p :=
  ⟨live_of_check (by decide +kernel), ⟨rfl, rfl, rfl⟩, rfl, (recordOut recordFront (.entry 0)).holding (wr 1 0x100040 [some 1]) .space [] 0,
    { place := 0, kind := .space, deadline := some 100, waitSet := [], due := 0 }, tPlace (wr 1 0x100040 [some 1]) .held,
    live_of_check (by decide +kernel), ⟨rfl, rfl, rfl⟩, by decide +kernel⟩

/-- A home write of the applying group outstanding. -/
def applyOut (s : State) (a : ApplyRecord) : State :=
  { (s.withPipeline .applying).awaiting .homeWrite tWrite with apply := some a }

theorem test_premises_ApplyStartsAndCounts :
    (∃ g, Live (onl.withPipeline .sealed) ∧ (onl.withPipeline .sealed).apply = none
      ∧ (onl.withPipeline .sealed).groups.pipeline = [g] ∧ g.state = .sealed ∧ (onl.withPipeline .sealed).mem.draining = false
      ∧ (onl.withPipeline .sealed).engine.state = .online)
      ∧ applying.apply.isSome ∧ (tState .quiesced).engine.state = .quiesced
      ∧ (Live (applyOut onl (tApply 1 1 1 true)) ∧ Awaits (applyOut onl (tApply 1 1 1 true)) (tEntry .homeWrite tWrite) []
          ∧ (applyOut onl (tApply 1 1 1 true)).engine.clear = none)
      ∧ (tApply 1 1 1 false).acked + 1 ≠ (applyOut onl (tApply 1 1 1 false)).applyLength (tApply 1 1 1 false) :=
  ⟨⟨_, live_of_check (by decide +kernel), rfl, rfl, rfl, rfl, rfl⟩, by decide +kernel, rfl,
    ⟨live_of_check (by decide +kernel), ⟨rfl, rfl, rfl⟩, rfl⟩, by decide +kernel⟩

theorem test_premises_LastHomeWriteRetiresTheGroup :
    ∃ g, Live (applyOut onl (tApply 1 1 0 false)) ∧ Awaits (applyOut onl (tApply 1 1 0 false)) (tEntry .homeWrite tWrite) []
      ∧ (applyOut onl (tApply 1 1 0 false)).findGroup 0 = some g ∧ (tApply 1 1 0 false).acked + 1 = g.entries.length
      ∧ g.commitNumber = some 1 ∧ (applyOut onl (tApply 1 1 0 false)).engine.clear = none :=
  ⟨{ tGroup 0 .applying 0 with commitNumber := some 1 }, live_of_check (by decide +kernel), ⟨rfl, rfl, rfl⟩, by decide +kernel⟩

theorem test_premises_ApplyFailureFaults :
    (Live (applyOut onl (tApply 1 1 0 false)) ∧ Awaits (applyOut onl (tApply 1 1 0 false)) (tEntry .homeWrite tWrite) []
      ∧ (applyOut onl (tApply 1 1 0 false)).engine.state = .online)
      ∧ (Live (applyOut onl (tApply 1 1 0 true)) ∧ (tApply 1 1 0 true).stopped = true)
      ∧ (∀ cs ∈ [[FaultCause.journalWrite], [.applyWrite]], Live (applyOut (faulted cs) (tApply 1 1 0 false))
          ∧ Awaits (applyOut (faulted cs) (tApply 1 1 0 false)) (tEntry .homeWrite tWrite) []
          ∧ (applyOut (faulted cs) (tApply 1 1 0 false)).engine.state = .faulted
          ∧ (applyOut (faulted cs) (tApply 1 1 0 false)).engine.clear = none) :=
  ⟨⟨live_of_check (by decide +kernel), ⟨rfl, rfl, rfl⟩, rfl⟩, ⟨live_of_check (by decide +kernel), rfl⟩, by
    intro cs hc
    simp only [List.mem_cons, List.not_mem_nil, or_false] at hc
    rcases hc with rfl | rfl <;> exact ⟨live_of_check (by decide +kernel), ⟨rfl, rfl, rfl⟩, rfl, rfl⟩⟩

/-- The same with a write of stream 1 held. -/
def applyOutHeld : State := (applyOut onl (tApply 1 1 0 false)).holding (wr 1 0x100040 [some 1]) .space [] 0

theorem test_premises_ApplyFailureFaults_held :
    (Live applyOutHeld ∧ Awaits applyOutHeld (tEntry .homeWrite tWrite) [])
      ∧ applyOutHeld.apply = some (tApply 1 1 0 false) ∧ applyOutHeld.engine.clear = none ∧ applyOutHeld.engine.state = .online
      ∧ (∃ h p, getV applyOutHeld.holds 1 = some h ∧ applyOutHeld.place? 1 h.place = some p)
      ∧ (applyOutHeld.faultEntryMgmt .applyWrite).events
          = [.fault .applyWrite, .decline 1 0x100040 .engineFault 0] :=
  ⟨⟨live_of_check (by decide +kernel), ⟨rfl, rfl, rfl⟩⟩, rfl, rfl, rfl,
    ⟨{ place := 0, kind := .space, deadline := some 100, waitSet := [], due := 0 },
      tPlace (wr 1 0x100040 [some 1]) .held, by decide +kernel⟩, by decide +kernel⟩

/-- The second half of this flight outstanding. -/
def flightOut (s : State) (f : Flight) (second : Bool) : State :=
  let s := s.awaiting (.anchorHalf second false) tWrite
  { s with ckpt := { s.ckpt with inFlight := some f } }

/-- QUIESCED with a RESUME waiting for its checkpoint. -/
def resuming : State :=
  let s := tState .quiesced
  { s with engine := { s.engine with activation := some tProfile }, mgmt := s.mgmt.runs .resume }

theorem test_premises_CheckpointAcknowledgementMovesTheTail :
    ∀ x ∈ [(onl, none), (tState .quiescing, some .quiesce), (resuming, some .resume),
        (recovering .close none, some CheckpointRequest.recovery)],
      Live (flightOut x.1 (tFlight x.2 (some .ok) true) true)
        ∧ Awaits (flightOut x.1 (tFlight x.2 (some .ok) true) true) (tEntry (.anchorHalf true false) tWrite) []
        ∧ (x.2 = none ∨ x.2 = some .quiesce ∧ x.1.engine.state = .quiescing
          ∨ x.2 = some .resume ∧ x.1.engine.state = .quiesced ∧ x.1.mgmt.running = some .resume ∧ x.1.engine.activation.isSome
          ∨ x.2 = some .recovery ∧ x.1.engine.state = .recovering ∧ x.1.mgmt.running = none) := by
  intro x hx
  simp only [List.mem_cons, List.not_mem_nil, or_false] at hx
  rcases hx with rfl | rfl | rfl | rfl <;>
    exact ⟨live_of_check (by decide +kernel), ⟨rfl, rfl, rfl⟩, by decide +kernel⟩

theorem test_premises_CheckpointFailureRetainsTheAnchor :
    (Live (flightOut onl (tFlight none none false) false)
      ∧ Awaits (flightOut onl (tFlight none none false) false) (tEntry (.anchorHalf false false) tWrite) [])
      ∧ (Live (flightOut resuming (tFlight (some .resume) (some .error) true) true)
        ∧ Awaits (flightOut resuming (tFlight (some .resume) (some .error) true) true) (tEntry (.anchorHalf true false) tWrite) []
        ∧ (flightOut resuming (tFlight (some .resume) (some .error) true) true).engine.state = .quiesced
        ∧ (flightOut resuming (tFlight (some .resume) (some .error) true) true).mgmt.running = some .resume) :=
  ⟨⟨live_of_check (by decide +kernel), ⟨rfl, rfl, rfl⟩⟩, live_of_check (by decide +kernel), ⟨rfl, rfl, rfl⟩, rfl, rfl⟩

/-- A failing checkpoint while a write of stream 1 is held. -/
def flightOutHeld : State := (flightOut onl (tFlight none (some .error) true) true).holding (wr 1 0x100040 [some 1]) .space [] 0

theorem test_premises_CheckpointFailureRetainsTheAnchor_held :
    (Live flightOutHeld ∧ Awaits flightOutHeld (tEntry (.anchorHalf true false) tWrite) [])
      ∧ flightOutHeld.ckpt.inFlight = some (tFlight none (some .error) true) ∧ flightOutHeld.engine.state = .online
      ∧ (∃ h p, getV flightOutHeld.holds 1 = some h ∧ flightOutHeld.place? 1 h.place = some p)
      ∧ (departures (flightOutHeld.placesFaulted 1)) = ([⟨1, 0, .declined .engineFault⟩], []) :=
  ⟨⟨live_of_check (by decide +kernel), ⟨rfl, rfl, rfl⟩⟩, rfl, rfl,
    ⟨{ place := 0, kind := .space, deadline := some 100, waitSet := [], due := 0 },
      tPlace (wr 1 0x100040 [some 1]) .held, by decide +kernel⟩, by decide +kernel⟩

def tRead (n : Nat) : MemRequest := { addr := 0x300000, op := .read n }

/-- The home read of `regionRead` outstanding, captured. -/
def readOut : State :=
  (onl.placing 0 [{ tPlace regionRead .reading with buffer := some { newOverlay regionRead with state := .captured } }]).awaiting
    (.homeRead 0 0) (tRead 8)

theorem test_premises_RequestPathCompletions :
    (∃ s, Live s ∧ Awaits s (tEntry (.passThrough 0 0) (tRead 8)) [] ∧ s.place? 0 0 = some (tPlace outsideRead .passed)
      ∧ (tRead 8).fits (.ok (List.replicate 8 0)) = true)
      ∧ Live readOut ∧ Awaits readOut (tEntry (.homeRead 0 0) (tRead 8)) []
      ∧ ∃ p b, readOut.place? 0 0 = some p ∧ p.buffer = some b ∧ b.cells.length = 128
          ∧ (tRead 8).fits (.ok (List.replicate 8 0)) = true ∧ p.request.op.length = 8 ∧ p.request.crossesBlock = false :=
  ⟨⟨(onl.placing 0 [tPlace outsideRead .passed]).awaiting (.passThrough 0 0) (tRead 8), live_of_check (by decide +kernel),
      ⟨rfl, rfl, rfl⟩, by decide +kernel, by decide +kernel⟩, live_of_check (by decide +kernel), ⟨rfl, rfl, rfl⟩,
    { tPlace regionRead .reading with buffer := some { newOverlay regionRead with state := .captured } },
    { newOverlay regionRead with state := .captured }, by decide +kernel⟩

/-- A drain with these requests outstanding. -/
def draining (s : State) (out : List MemEntry) : State := { s with mem := { s.mem with outstanding := out, draining := true } }

/-- FORMAT from FAULTED in its drain. -/
def formatDrain (stamp : Word) : State :=
  let s := journalFaulted
  draining { s with
    mgmt := s.mgmt.runs .format
    service := { s.service with format := some { tFormat 0 0 with stamp := stamp, checked := false } } } [tEntry .record tWrite]

/-- The same with a staging profile that is not valid: open reserve 129. -/
def badStaging (s : State) : State :=
  { s with engine := { s.engine with staging := { tProfile with openReserve := 129 } } }

theorem test_profile_validation :
    profileFault tProfile 0 1024 = none ∧ profileFault { tProfile with openReserve := 129 } 0 1024 = some (16, 1) := by decide +kernel

theorem test_premises_DrainDiscardsAndClears :
    Live (draining onl [tEntry .record tWrite, tEntry .record tWrite]) ∧ Live (draining onl [tEntry .record tWrite])
      ∧ (draining onl [tEntry .record tWrite]).service.format = none
      ∧ (∀ stamp ∈ [0, 7, (8 : Word)], Live (formatDrain stamp) ∧ (formatDrain stamp).mem.draining = true
          ∧ (formatDrain stamp).mem.outstanding = [tEntry .record tWrite]
          ∧ (formatDrain stamp).mgmt.running = some .format)
      ∧ profileFault (formatDrain 8).engine.staging (journalBase 0) (Machine.ringSize 0) = none
      ∧ profileFault (badStaging (formatDrain 8)).engine.staging (journalBase 0) (Machine.ringSize 0) = some (16, 1) := by
  refine ⟨live_of_check (by decide +kernel), live_of_check (by decide +kernel), rfl, ?_, by decide +kernel⟩
  intro stamp hs
  simp only [List.mem_cons, List.not_mem_nil, or_false] at hs
  rcases hs with rfl | rfl | rfl <;> exact ⟨live_of_check (by decide +kernel), rfl, rfl, rfl⟩

/-- The clearing of FORMAT from FAULTED sets the retired-through number to 0, though its checks then fail. -/
theorem test_step_drainCompletion_format :
    (after .drainCompletion { formatDrain 0 with ckpt := { (formatDrain 0).ckpt with retiredThrough := 9 } }).map
      (fun t => (t.ckpt.retiredThrough, t.engine.state, t.mgmt.result.result)) = some (0, .faulted, .stampReused) := by decide +kernel

/-! ### Witnesses: recovery -/

/-- The two halves of an anchor as the anchor reads bring them. -/
def halves (a : Anchor) : List Byte × List Byte := (anchorHalf a false, anchorHalf a true)

/-- 128 bytes that no anchor begins with. -/
def blankHalf : List Byte := List.replicate 128 0

/-- Phase ANCHORS with these reads done and the next outstanding. -/
def anchorOut (reads : List AnchorRead) : State :=
  let s := State.reset.awaiting .anchorRead ⟨0, .read 128⟩
  { s with service := { s.service with recovery := { s.service.recovery with anchorReads := reads } } }

def tAnchorB : Anchor := { tAnchor with number := 4 }

set_option maxRecDepth 20000 in
theorem test_anchor_reads_back : readAnchor (anchorHalf tAnchor false ++ anchorHalf tAnchor true) = some tAnchor := by
  decide +kernel

theorem test_no_anchor_in_zeros : readAnchor (blankHalf ++ blankHalf) = none := by decide +kernel

set_option maxRecDepth 20000 in
theorem test_premises_AnchorReadsChooseAndLoad :
    (∀ reads ∈ [[], [.ok blankHalf, .ok blankHalf, .ok blankHalf],
        [AnchorRead.ok (anchorHalf tAnchor false), .ok (anchorHalf tAnchor true), .ok (anchorHalf tAnchorB false)]],
      Live (anchorOut reads) ∧ Awaits (anchorOut reads) (tEntry .anchorRead ⟨0, .read 128⟩) []
        ∧ (anchorOut reads).engine.state = .recovering ∧ (anchorOut reads).mgmt.running = none
        ∧ (∀ st, getV (anchorOut reads).holds st = none))
      ∧ MemRequest.fits ⟨0, .read 128⟩ (.ok blankHalf) = true
      ∧ MemRequest.fits ⟨0, .read 128⟩ (.ok (anchorHalf tAnchorB true)) = true
      ∧ readAnchor (anchorHalf tAnchorB false ++ anchorHalf tAnchorB true) = some tAnchorB
      ∧ later tAnchorB.number tAnchor.number = true := by
  refine ⟨?_, by decide +kernel⟩
  intro reads hr
  simp only [List.mem_cons, List.not_mem_nil, or_false] at hr
  rcases hr with rfl | rfl | rfl <;> exact ⟨live_of_check (by decide +kernel), ⟨rfl, rfl, rfl⟩, rfl, rfl, by decide +kernel⟩

/-- RECOVERING in this phase with one read of a record outstanding. -/
def readingRecord (s : State) (p : Purpose) : State := s.awaiting p ⟨0, .read 64⟩

def tCommit : List Byte := commitRecord 7 8 { tGroup 0 .sealing 0 with number := 5 } 2

/-- An ENTRY of the group in replay, for line 0x8002 or 0x8003. -/
def tEntryRecord (line : Line) : List Byte := entryRecord 7 6 (tGroup 0 .open 0) line (List.replicate 32 (some 1))

theorem test_records_read_back :
    readRecord 7 8 tCommit = some (.commit 0 5 2 1 1)
      ∧ readRecord 7 6 (tEntryRecord 0x8002) = some (.entry 0 5 0x8002 (List.replicate 32 (some 1)))
      ∧ readRecord 7 6 (fillerRecord 7 6) = some .filler ∧ readRecord 7 7 (fillerRecord 7 6) = none
      ∧ readRecord 7 6 (List.replicate 64 0) = none := by decide +kernel

theorem live_recovering (s : State) (p : Purpose) (h : liveCheck s = true) : Live (readingRecord s p) := live_of_check h

theorem test_premises_ScanStopsAtTheFirstInvalidRecord :
    Live (readingRecord (recovering .scan none) (.scanRead 6))
      ∧ Awaits (readingRecord (recovering .scan none) (.scanRead 6)) (tEntry (.scanRead 6) ⟨0, .read 64⟩) []
      ∧ (recovering .scan none).engine.state = .recovering ∧ (recovering .scan none).service.recovery.phase = some .scan
      ∧ (recovering .scan none).journal.format = some ⟨0, 7⟩
      ∧ MemRequest.fits ⟨0, .read 64⟩ (.ok (fillerRecord 7 6)) = true ∧ readRecord 7 6 (fillerRecord 7 6) = some .filler
      ∧ (6 + 1 - (recovering .scan none).service.recovery.tail).toNat ≠ Machine.ringSize 0
      ∧ readRecord 7 6 (List.replicate 64 0) = none ∧ (6 : Word) ≠ (recovering .scan none).service.recovery.tail
      ∧ (recovering .scan none).mgmt.running = none ∧ (∀ st, getV (recovering .scan none).holds st = none) :=
  ⟨live_recovering _ _ (by decide +kernel), ⟨rfl, rfl, rfl⟩, by decide +kernel⟩

/-- The scan at the tail, and at the last position before T + N. -/
theorem test_premises_ScanStopsAtTheFirstInvalidRecord_bounds :
    (∀ seq ∈ [(5 : Word), 1028], Live (readingRecord (recovering .scan none) (.scanRead seq))
      ∧ Awaits (readingRecord (recovering .scan none) (.scanRead seq)) (tEntry (.scanRead seq) ⟨0, .read 64⟩) []
      ∧ (recovering .scan none).engine.state = .recovering ∧ (recovering .scan none).service.recovery.phase = some .scan
      ∧ (recovering .scan none).journal.format = some ⟨0, 7⟩)
      ∧ (5 : Word) = (recovering .scan none).service.recovery.tail ∧ readRecord 7 5 (List.replicate 64 0) = none
      ∧ (1028 + 1 - (recovering .scan none).service.recovery.tail).toNat = Machine.ringSize 0
      ∧ readRecord 7 1028 (fillerRecord 7 1028) = some .filler
      ∧ MemRequest.fits ⟨0, .read 64⟩ (.ok (fillerRecord 7 1028)) = true
      ∧ MemRequest.fits ⟨0, .read 64⟩ (.ok (List.replicate 64 0)) = true := by
  refine ⟨?_, by decide +kernel⟩
  intro seq hs
  simp only [List.mem_cons, List.not_mem_nil, or_false] at hs
  rcases hs with rfl | rfl <;> exact ⟨live_recovering _ _ (by decide +kernel), ⟨rfl, rfl, rfl⟩, by decide +kernel⟩

/-- The walk with a read of this sequence number outstanding. -/
def walking (seq : Word) : State := readingRecord (recovering .replay (some 9)) (.walkRead seq)

theorem test_premises_WalkReplaysLaterCommits :
    (∀ seq ∈ [(6 : Word), 8], Live (walking seq) ∧ Awaits (walking seq) (tEntry (.walkRead seq) ⟨0, .read 64⟩) []
      ∧ (walking seq).engine.state = .recovering ∧ (walking seq).service.recovery.phase = some .replay
      ∧ (walking seq).service.recovery.scannedHead = some 9 ∧ (walking seq).journal.format = some ⟨0, 7⟩
      ∧ (walking seq).mgmt.running = none ∧ (∀ st, getV (walking seq).holds st = none))
      ∧ (MemRequest.fits ⟨0, .read 64⟩ (.ok (fillerRecord 7 6)) = true ∧ readRecord 7 6 (fillerRecord 7 6) = some .filler
          ∧ (6 : Word) + 1 ≠ 9 ∧ readRecord 7 8 (fillerRecord 7 8) = some .filler ∧ (8 : Word) + 1 = 9)
      ∧ (readRecord 7 8 tCommit = some (.commit 0 5 2 1 1) ∧ MemRequest.fits ⟨0, .read 64⟩ (.ok tCommit) = true
          ∧ later 2 (walking 8).service.recovery.through = true ∧ (8 : Word) ≠ (walking 8).service.recovery.tail)
      ∧ MemRequest.fits ⟨0, .read 64⟩ .error = true := by
  refine ⟨?_, by decide +kernel⟩
  intro seq hs
  simp only [List.mem_cons, List.not_mem_nil, or_false] at hs
  rcases hs with rfl | rfl <;>
    exact ⟨live_recovering _ _ (by decide +kernel), ⟨rfl, rfl, rfl⟩, by decide +kernel⟩

/-- A COMMIT at the tail whose counts are 1, and one whose counts are 0. -/
def tCommitAtTail (empty : Bool) : List Byte :=
  let g := { tGroup 0 .sealing 0 with number := 5 }
  commitRecord 7 5 (if empty then { g with entries := [], recordCount := 0 } else g) 2

theorem test_premises_WalkReplaysLaterCommits_at_tail :
    (Live (walking 5) ∧ Awaits (walking 5) (tEntry (.walkRead 5) ⟨0, .read 64⟩) [])
      ∧ (walking 5).engine.state = .recovering ∧ (walking 5).service.recovery.phase = some .replay
      ∧ (walking 5).service.recovery.scannedHead = some 9 ∧ (walking 5).journal.format = some ⟨0, 7⟩
      ∧ (∀ st, getV (walking 5).holds st = none) ∧ (5 : Word) = (walking 5).service.recovery.tail
      ∧ later 2 (walking 5).service.recovery.through = true
      ∧ readRecord 7 5 (tCommitAtTail false) = some (.commit 0 5 2 1 1)
      ∧ readRecord 7 5 (tCommitAtTail true) = some (.commit 0 5 2 0 0)
      ∧ MemRequest.fits ⟨0, .read 64⟩ (.ok (tCommitAtTail false)) = true
      ∧ MemRequest.fits ⟨0, .read 64⟩ (.ok (tCommitAtTail true)) = true :=
  ⟨⟨live_recovering _ _ (by decide +kernel), ⟨rfl, rfl, rfl⟩⟩, by decide +kernel⟩

/-- A collection of one line for one COMMIT at 8, with a read outstanding; `p` and `slots` say how far. -/
def collecting (p : Replay) (entries : List SlotId) (seq : Word) : State :=
  let s := replaying p
  readingRecord { s with groups := { s.groups with
    replaying := some { tGroup 0 .applying 0 with commitNumber := some 2, entries := entries } } } (.collectRead seq)

def tCollected (entries : List SlotId) : Group := { tGroup 0 .applying 0 with commitNumber := some 2, entries := entries }

theorem test_premises_CollectionFillsAndCounts :
    (∀ x ∈ [([0], (6 : Word)), ([], 6), ([0], 7)], Live (collecting (tReplay false) x.1 x.2)
      ∧ Awaits (collecting (tReplay false) x.1 x.2) (tEntry (.collectRead x.2) ⟨0, .read 64⟩) []
      ∧ (collecting (tReplay false) x.1 x.2).engine.state = .recovering
      ∧ (collecting (tReplay false) x.1 x.2).journal.format = some ⟨0, 7⟩
      ∧ (collecting (tReplay false) x.1 x.2).service.replay = some (tReplay false)
      ∧ (collecting (tReplay false) x.1 x.2).groups.replaying = some (tCollected x.1)
      ∧ (collecting (tReplay false) x.1 x.2).mgmt.running = none
      ∧ (∀ st, getV (collecting (tReplay false) x.1 x.2).holds st = none))
      ∧ (MemRequest.fits ⟨0, .read 64⟩ (.ok (tEntryRecord 0x8002)) = true ∧ (0 : Byte) = (tReplay false).stream
          ∧ (5 : Word) = (tCollected [0]).number ∧ (6 : Word) + 1 ≠ (tReplay false).seq
          ∧ (collecting (tReplay false) [0] 6).slotFor (tCollected [0]) 0x8002 = some 0
          ∧ (collecting (tReplay false) [] 6).slotFor (tCollected []) 0x8002 = none
          ∧ (collecting (tReplay false) [] 6).pool.free ≠ [] ∧ (tCollected []).entries.length + 1 ≤ (tReplay false).slotCount.toNat
          ∧ (collecting (tReplay false) [0] 6).slotFor (tCollected [0]) 0x8003 = none
          ∧ (tReplay false).slotCount.toNat < (tCollected [0]).entries.length + 1)
      ∧ ((7 : Word) + 1 = (tReplay false).seq ∧ readRecord 7 7 (fillerRecord 7 7) = some .filler
          ∧ (tReplay false).matched = (tReplay false).entryCount.toNat
          ∧ (tCollected [0]).entries.length = (tReplay false).slotCount.toNat
          ∧ (tCollected []).entries.length ≠ (tReplay false).slotCount.toNat) := by
  refine ⟨?_, by decide +kernel⟩
  intro x hx
  simp only [List.mem_cons, List.not_mem_nil, or_false] at hx
  rcases hx with rfl | rfl | rfl <;> exact ⟨live_of_check (by decide +kernel), ⟨rfl, rfl, rfl⟩, by decide +kernel⟩

/-- The count check of a COMMIT whose counts are 0. -/
theorem test_premises_CollectionFillsAndCounts_empty :
    let p := { tReplay false with entryCount := 0, slotCount := 0, matched := 0 }
    (Live (collecting p [] 7) ∧ Awaits (collecting p [] 7) (tEntry (.collectRead 7) ⟨0, .read 64⟩) [])
      ∧ (collecting p [] 7).service.replay = some p ∧ (collecting p [] 7).groups.replaying = some (tCollected [])
      ∧ (7 : Word) + 1 = p.seq ∧ p.matched = p.entryCount.toNat ∧ (tCollected []).entries.length = p.slotCount.toNat
      ∧ (collecting p [] 7).service.recovery.scannedHead = some 9 ∧ (collecting p [] 7).service.recovery.cursor ≠ 9 :=
  ⟨⟨live_of_check (by decide +kernel), ⟨rfl, rfl, rfl⟩⟩, by decide +kernel⟩

/-- A replay write outstanding. -/
def replayOut (p : Replay) : State := (replaying p).awaiting .replayWrite tWrite

theorem test_premises_ReplayWritesFinishTheGroup :
    Live (replayOut (tReplay true)) ∧ Awaits (replayOut (tReplay true)) (tEntry .replayWrite tWrite) []
      ∧ (replayOut (tReplay true)).service.replay = some (tReplay true)
      ∧ (replayOut (tReplay true)).groups.replaying = some (tCollected [0])
      ∧ (replayOut (tReplay true)).service.recovery.scannedHead = some 9
      ∧ (tReplay true).acked + 1 = (tCollected [0]).entries.length ∧ (replayOut (tReplay true)).service.recovery.cursor ≠ 9
      ∧ (tReplay true).acked + 1 ≠ (tCollected [0, 1]).entries.length
      ∧ (replayOut (tReplay true)).engine.state = .recovering ∧ (replayOut (tReplay true)).mgmt.running = none
      ∧ (∀ st, getV (replayOut (tReplay true)).holds st = none) :=
  ⟨live_of_check (by decide +kernel), ⟨rfl, rfl, rfl⟩, by decide +kernel⟩

/-- The last write of a replay whose COMMIT is the last scanned record. -/
def lastReplayOut : State :=
  (replayOut (tReplay true)).withRecovery fun r => { r with cursor := 9 }

theorem test_premises_ReplayWritesFinishTheGroup_at_head :
    (Live lastReplayOut ∧ Awaits lastReplayOut (tEntry .replayWrite tWrite) [])
      ∧ lastReplayOut.service.replay = some (tReplay true) ∧ lastReplayOut.groups.replaying = some (tCollected [0])
      ∧ lastReplayOut.service.recovery.scannedHead = some lastReplayOut.service.recovery.cursor
      ∧ (tReplay true).acked + 1 = (tCollected [0]).entries.length :=
  ⟨⟨live_of_check (by decide +kernel), ⟨rfl, rfl, rfl⟩⟩, by decide +kernel⟩

/-! ### Witnesses: FORMAT, DIGEST and the command slot -/

theorem test_premises_FormatWritesEndTheCommand :
    (∀ w ∈ [tFormat 3 2, tFormat 4 3], ∃ s, Live s ∧ Awaits s (tEntry .formatWrite tWrite) [] ∧ s.service.format = some w
      ∧ s.mgmt.running = some .format) ∧ (tFormat 3 2).acked + 1 ≠ 4 ∧ (tFormat 4 3).acked + 1 = 4 := by
  refine ⟨?_, by decide⟩
  intro w hw
  simp only [List.mem_cons, List.not_mem_nil, or_false] at hw
  rcases hw with rfl | rfl
  · exact ⟨(formatting 3 2).awaiting .formatWrite tWrite, live_of_check (by decide +kernel), ⟨rfl, rfl, rfl⟩, rfl, rfl⟩
  · exact ⟨(formatting 4 3).awaiting .formatWrite tWrite, live_of_check (by decide +kernel), ⟨rfl, rfl, rfl⟩, rfl, rfl⟩

def digestOut : State := digesting.awaiting .digestRead (tRead 128)

theorem test_premises_DigestReadsFeedTheCrc :
    Live digestOut ∧ Awaits digestOut (tEntry .digestRead (tRead 128)) [] ∧ digestOut.service.digest = some tDigest
      ∧ digestOut.mgmt.running = some .digest ∧ (tRead 128).fits (.ok blankHalf) = true
      ∧ tDigest.processed + blankHalf.length < tDigest.stop - tDigest.start
      ∧ (∃ d : DigestRecord, d.stop - d.start ≤ d.processed + blankHalf.length) :=
  ⟨live_of_check (by decide +kernel), ⟨rfl, rfl, rfl⟩, rfl, rfl, by decide +kernel, by decide +kernel,
    ⟨{ tDigest with stop := 0x300080 }, by decide +kernel⟩⟩

theorem test_premises_BusySlotDropsCommands :
    Live digesting ∧ digesting.mgmt.running.isSome ∧ Live onl ∧ onl.mgmt.running = none ∧ unknownCode 0 = true
      ∧ unknownCode 10 = true := ⟨live_of_check (by decide +kernel), rfl, live_of_check (by decide +kernel), rfl, rfl, rfl⟩

theorem test_premises_QuiesceByState :
    (∀ e ∈ [EngineState.online, .quiescing, .quiesced, .recovering, .unformatted], Live (tState e)
      ∧ (tState e).mgmt.running = none ∧ (tState e).engine.state = e)
      ∧ (Live journalFaulted ∧ journalFaulted.engine.state = .faulted ∧ journalFaulted.engine.causes ≠ []
          ∧ ∀ c ∈ journalFaulted.engine.causes, c.onlineSide = true)
      ∧ (Live mismatched ∧ ∃ c ∈ mismatched.engine.causes, c.onlineSide = false)
      ∧ (faulted []).engine.causes = [] := by
  refine ⟨?_, ⟨live_of_check (by decide +kernel), by decide +kernel⟩, ⟨live_of_check (by decide +kernel), by decide +kernel⟩, rfl⟩
  intro e he
  simp only [List.mem_cons, List.not_mem_nil, or_false] at he
  rcases he with rfl | rfl | rfl | rfl | rfl <;> exact ⟨live_of_check (by decide +kernel), rfl, rfl⟩

theorem test_premises_ResumeAndStageFromActive :
    Live (tState .quiesced) ∧ (tState .quiesced).mgmt.running = none ∧ (tState .quiesced).engine.state = .quiesced
      ∧ profileFault (tState .quiesced).engine.staging (journalBase 0) (tState .quiesced).ringSize = none
      ∧ profileFault (badStaging (tState .quiesced)).engine.staging (journalBase 0) (tState .quiesced).ringSize = some (16, 1)
      ∧ onl.engine.state ≠ .quiesced ∧ onl.profile = some tProfile ∧ onl.engine.state ≠ .recovering
      ∧ State.reset.profile = none := ⟨live_of_check (by decide +kernel), by decide +kernel⟩

/-- A profile whose regions 0 and 1 are this one and that one. -/
def regions01 (a b : Region) : Profile :=
  { Profile.coldReset with regions := setV (setV (Vector.replicate 6 Region.disabled) 0 a) 1 b }

theorem test_premises_ValidationReportsTheFirstFailure :
    (∀ e ∈ [(11 : BitVec 6), 33], (getV (regions01 tRegion { tRegion with sizeExp := e }).regions 1).enabled = true
        ∧ (∀ j : Fin 6, j < 1 → regionFault (regions01 tRegion { tRegion with sizeExp := e }) 0 1024 j.val = none)
        ∧ (e.toNat < 12 ∨ 32 < e.toNat))
      ∧ ((12 : BitVec 6).toNat = 12 ∧ (32 : BitVec 6).toNat = 32
          ∧ (0x200800 : Addr).toNat % 2 ^ (12 : BitVec 6).toNat ≠ 0 ∧ (0x200000 : Addr).toNat % 2 ^ (32 : BitVec 6).toNat ≠ 0)
      ∧ ((∀ i, i < 6 → regionFault tProfile 0 1024 i = none) ∧ (∀ k, k < 1 → streamFault tProfile 0 1024 k = none)
          ∧ (getV tProfile.streams 1).enabled = true ∧ (tStream 0x100009 0x200008 64).commitWord.toNat % 8 ≠ 0)
      ∧ ((∀ i, (getV Profile.coldReset.regions i).enabled = false) ∧ (∀ j, (getV Profile.coldReset.streams j).enabled = false)) := by
  decide +kernel

theorem test_premises_DiscardOpenDiscardsEveryOpenGroup :
    (Live (tState .quiesced) ∧ (tState .quiesced).engine.state = .quiesced) ∧ (Live onl ∧ onl.engine.state = .online)
      ∧ Live recordFront ∧ recordFront.openGroup? 0 ≠ none ∧ recordFront.mgmt.running = none
      ∧ ∃ s h p, Live s ∧ s.engine.state = .online ∧ s.openGroup? 0 ≠ none ∧ getV s.holds 0 = some h
          ∧ s.place? 0 h.place = some p :=
  ⟨⟨live_of_check (by decide +kernel), rfl⟩, ⟨live_of_check (by decide +kernel), rfl⟩, live_of_check (by decide +kernel),
    by decide +kernel, rfl, recordFront.holding oneLine .space [] 0,
    { place := 0, kind := .space, deadline := some 100, waitSet := [], due := 0 }, tPlace oneLine .held,
    live_of_check (by decide +kernel), rfl, by decide +kernel⟩

/-- FAULTED after a failed checkpoint that answered `answers`. -/
def ckptFaulted (answers : Option CheckpointRequest) : State :=
  let s := faulted [.checkpointWrite]
  { s with
    ckpt := { s.ckpt with retained := some { copy := .b, anchor := tAnchor, answers := answers } }
    engine := { s.engine with activation := some tProfile } }

/-- The second half of its rewrite outstanding, under CLEAR_FAULT. -/
def rewriteHalfOut (answers : Option CheckpointRequest) : State :=
  let s := (ckptFaulted answers).awaiting (.anchorHalf true true) tWrite
  { s with
    ckpt := { s.ckpt with rewrite := some { first := some .ok, secondGranted := true, own := true } }
    engine := { s.engine with clear := some .anchor }
    mgmt := s.mgmt.runs .clearFault }

theorem test_premises_ClearFaultWorksThroughItsSteps :
    (Live onl ∧ onl.mgmt.running = none ∧ onl.engine.state ≠ .faulted) ∧ (∃ c ∈ mismatched.engine.causes, c.onlineSide = false)
      ∧ (∃ s, Live s ∧ s.mgmt.running = none ∧ s.engine.state = .faulted ∧ (∀ c ∈ s.engine.causes, c.onlineSide = true)
          ∧ .journalWrite ∈ s.engine.causes ∧ s.journal.failed ≠ [])
      ∧ (∃ s a, Live s ∧ s.mgmt.running = none ∧ s.engine.state = .faulted ∧ s.engine.causes = [.applyWrite]
          ∧ s.apply = some a ∧ a.outstanding = 0)
      ∧ (Live (ckptFaulted none) ∧ (ckptFaulted none).engine.causes = [.checkpointWrite]
          ∧ (ckptFaulted none).ckpt.retained.isSome)
      ∧ ∀ answers ∈ [none, some CheckpointRequest.quiesce, some .resume], Live (rewriteHalfOut answers)
          ∧ Awaits (rewriteHalfOut answers) (tEntry (.anchorHalf true true) tWrite) []
          ∧ (rewriteHalfOut answers).engine.state = .faulted ∧ (rewriteHalfOut answers).engine.causes = [.checkpointWrite]
          ∧ (rewriteHalfOut answers).mgmt.running = some .clearFault ∧ (rewriteHalfOut answers).engine.activation.isSome := by
  refine ⟨⟨live_of_check (by decide +kernel), rfl, nofun⟩, by decide +kernel,
    ⟨{ rewriting with mgmt := onl.mgmt, engine := { rewriting.engine with clear := none } }, live_of_check (by decide +kernel),
      by decide +kernel⟩,
    ⟨{ (faulted [.applyWrite]).withPipeline .applying with apply := some (tApply 1 0 0 true) }, tApply 1 0 0 true,
      live_of_check (by decide +kernel), by decide +kernel⟩,
    ⟨live_of_check (by decide +kernel), rfl, rfl⟩, ?_⟩
  intro answers ha
  simp only [List.mem_cons, List.not_mem_nil, or_false] at ha
  rcases ha with rfl | rfl | rfl <;>
    exact ⟨live_of_check (by decide +kernel), ⟨rfl, rfl, rfl⟩, rfl, rfl, rfl, rfl⟩

theorem test_premises_RestartRetractsAndDrains :
    (Live onl ∧ onl.service.digest = none ∧ onl.mem.outstanding = [])
      ∧ (Live commitOut ∧ commitOut.service.digest = none ∧ commitOut.mem.outstanding ≠ [])
      ∧ (Live digestOut ∧ digestOut.service.digest = some tDigest ∧ digestOut.mgmt.running = some .digest
          ∧ digestOut.mem.outstanding ≠ [])
      ∧ Live digesting ∧ digesting.service.digest = some tDigest ∧ digesting.mgmt.running = some .digest
          ∧ digesting.mem.outstanding = [] :=
  ⟨⟨live_of_check (by decide +kernel), rfl, rfl⟩, ⟨live_of_check (by decide +kernel), rfl, by decide +kernel⟩,
    ⟨live_of_check (by decide +kernel), rfl, rfl, by decide +kernel⟩, live_of_check (by decide +kernel), rfl, rfl, rfl⟩

/-- The part with these arguments in ARG0 to ARG2. -/
def State.withArgs (s : State) (a b c : Word) : State :=
  { s with mgmt := { s.mgmt with args := setV (setV (setV s.mgmt.args 0 a) 1 b) 2 c } }

theorem test_premises_FormatChecksAndBegins :
    (Live onl ∧ onl.mgmt.running = none ∧ onl.engine.state = .online)
      ∧ (∀ x ∈ [((9 : Word), (8 : Word)), (8, 0), (8, 7), (8, 8)], Live ((tState .quiesced).withArgs x.1 x.2 0)
          ∧ ((tState .quiesced).withArgs x.1 x.2 0).mgmt.running = none
          ∧ getV ((tState .quiesced).withArgs x.1 x.2 0).mgmt.args 0 = x.1
          ∧ getV ((tState .quiesced).withArgs x.1 x.2 0).mgmt.args 1 = x.2)
      ∧ 8 < (9 : Word).toNat ∧ (8 : Word).toNat ≤ 8 ∧ onl.journal.format = some ⟨0, 7⟩
      ∧ profileFault tProfile (journalBase 0) (1024 * 2 ^ (0 : Word).toNat) = none
      ∧ profileFault { tProfile with openReserve := 129 } (journalBase 0) (1024 * 2 ^ (8 : Word).toNat) ≠ none
      ∧ (Live (journalFaulted.awaiting .record tWrite) ∧ (journalFaulted.awaiting .record tWrite).engine.state = .faulted
          ∧ (journalFaulted.awaiting .record tWrite).mem.outstanding ≠ []) := by
  refine ⟨⟨live_of_check (by decide +kernel), rfl, rfl⟩, ?_, by decide, by decide, rfl, by decide +kernel, by decide +kernel,
    live_of_check (by decide +kernel), rfl, by decide +kernel⟩
  intro x hx
  simp only [List.mem_cons, List.not_mem_nil, or_false] at hx
  rcases hx with rfl | rfl | rfl | rfl <;> exact ⟨live_of_check (by decide +kernel), rfl, by decide +kernel⟩

theorem test_premises_DigestAndAbortDigest :
    (Live onl ∧ onl.engine.state ≠ .quiesced ∧ onl.engine.state ≠ .unformatted)
      ∧ (∀ x ∈ [((0x300010 : Word), (32 : Word)), (0x300000, 16), (0x10FE0, 32), (0x300000, 32), (0x100000, 0)],
          Live ((tState .quiesced).withArgs x.1 x.2 0))
      ∧ (tState .quiesced).inJournalArea 0x10FE0 = true ∧ (tState .quiesced).inJournalArea 0x300000 = false
      ∧ (Live digesting ∧ digesting.service.digest = some tDigest ∧ digesting.mgmt.running = some .digest)
      ∧ (Live resuming ∧ resuming.service.digest = none ∧ resuming.mgmt.running.isSome)
      ∧ onl.service.digest = none ∧ onl.mgmt.running = none := by
  refine ⟨⟨live_of_check (by decide +kernel), by decide +kernel⟩, ?_, by decide +kernel, by decide +kernel,
    ⟨live_of_check (by decide +kernel), rfl, rfl⟩, ⟨live_of_check (by decide +kernel), rfl, rfl⟩, rfl, rfl⟩
  intro x hx
  simp only [List.mem_cons, List.not_mem_nil, or_false] at hx
  rcases hx with rfl | rfl | rfl | rfl | rfl <;> exact live_of_check (by decide +kernel)

/-! ### Witnesses: the management port and the laws -/

/-- The part with these events queued. -/
def withEvents (es : List Event) : State := { onl with mgmt := { onl.mgmt with events := es, intEnable := 0x20 } }

def tEvents (n : Nat) : List Event := .state .online :: List.replicate n (.state .quiesced)

theorem test_premises_ManagementFramesAct :
    Live (withEvents (tEvents 1)) ∧ (withEvents (tEvents 1)).mgmt.events = .state .online :: [.state .quiesced]
      ∧ Live onl ∧ onl.mgmt.events = [] ∧ onl.mgmt.selectActive = false
      ∧ (∃ s, Live s ∧ s.mgmt.selectActive = true)
      ∧ (0x80000000 : Word).getLsbD 31 = true ∧ (1 : Word).setWidth 8 = 1#8 ∧ (5 : Word).setWidth 8 = 5#8
      ∧ ((0x1D : BitVec 6).toNat ∈ [0x1B, 0x1C] ∨ 0x1D ≤ (0x1D : BitVec 6).toNat) :=
  ⟨live_of_check (by decide +kernel), rfl, live_of_check (by decide +kernel), rfl, rfl,
    ⟨{ onl with mgmt := { onl.mgmt with selectActive := true } }, live_of_check (by decide +kernel), rfl⟩, by decide⟩

theorem test_premises_ProfileDataWordsReadBack : (1 : Fin 4) ≠ 0 ∧ (15 : BitVec 4) ≠ 6 := by decide

theorem test_premises_IntFollowsTheEnabledKinds :
    Live (withEvents (tEvents 31)) ∧ 32 ≤ (withEvents (tEvents 31)).mgmt.events.length
      ∧ (withEvents (tEvents 30)).mgmt.events.length < 32
      ∧ (∃ e ∈ List.replicate 1 (Event.state .quiesced), (withEvents (tEvents 1)).mgmt.intEnable.getLsbD (e.kind - 1) = true) :=
  ⟨live_of_check (by decide +kernel), by decide +kernel, by decide +kernel, by decide +kernel⟩

theorem test_premises_FullQueueCountsLostEvents :
    (withEvents (tEvents 31)).mgmt.events.length = 32 ∧ (withEvents (tEvents 31)).mgmt.lost = 0
      ∧ (withEvents (tEvents 31)).mgmt.events = .state .online :: List.replicate 31 (.state .quiesced) := by decide +kernel

theorem test_premises_RecordsReadBack : (List.replicate 32 (some (1 : Byte))).length = 32 ∧ (7 : Word) ≠ 8 := by decide

theorem test_premises_AnchorsReadBack : tAnchor.stamp ≠ 0 := by decide

theorem test_premises_StatusRegistersShowTheState : 0x1D ≤ (0x1D : BitVec 6).toNat := by decide

theorem noReadyFront_recordFront : NoReadyFront recordFront := (live_of_check (by decide +kernel)).2

/-- A part with a group open and a record queued: it keeps every law, and steps. -/
def lawful : State := { recordFront with pending := [.recordIssue] }

theorem test_premises_StepKeepsTheBounds :
    (EventLaw lawful ∧ PlaceLaw lawful ∧ OutstandingLaw lawful ∧ QueueLaw lawful ∧ NoReadyFront lawful)
      ∧ step lawful = exec .recordIssue recordFront ∧ (after .recordIssue recordFront).isSome = true :=
  ⟨⟨by unfold EventLaw; decide +kernel, by unfold PlaceLaw; decide +kernel, by unfold OutstandingLaw; decide +kernel,
    by unfold QueueLaw; decide +kernel, noReadyFront_recordFront⟩, rfl, by decide +kernel⟩

theorem test_premises_StepKeepsIndexAndFaultRecordLaws : IndexLaw lawful ∧ FaultRecordLaw lawful :=
  ⟨⟨by decide +kernel, by unfold EntryLaw; decide +kernel⟩, by unfold FaultRecordLaw; decide +kernel⟩

theorem test_premises_StepKeepsTheFreeListLaw : FreeListLaw lawful ∧ RefLaw lawful ∧ ReplayLaw lawful := by
  refine ⟨by unfold FreeListLaw; decide +kernel, ⟨by decide +kernel, by decide +kernel, nofun⟩, rfl, nofun⟩

/-! ### Witnesses: the other clauses of statements with several -/

theorem test_premises_EveryRequestIsDecided_acts :
    (onl.offered oneLine).run = .running ∧ Admissible (onl.offered oneLine) 0 (tPlace oneLine .waiting)
      ∧ ∃ h, (onl.holding oneLine .space [] 1).run = .running ∧ (onl.holding oneLine .space [] 1).formatRuns = false
          ∧ getV (onl.holding oneLine .space [] 1).holds 0 = some h ∧ 0 < h.due
          ∧ (onl.holding oneLine .space [] 1).place? 0 h.place = some (tPlace oneLine .held) :=
  ⟨rfl, (admits_onl _ rfl (by decide +kernel)).2.2,
    { place := 0, kind := .space, deadline := some 100, waitSet := [], due := 1 }, rfl, by decide +kernel⟩

/-- The commit write brings line 0x8000; the OPEN group holds line 0x8002 already, slot 0, and is sealed with it. -/
theorem test_premises_CommitWriteSealsItsGroup_held :
    Live (openOffered commitOnly) ∧ FreeListLaw (openOffered commitOnly) ∧ IndexLaw (openOffered commitOnly)
      ∧ Examines (openOffered commitOnly) (.admission 0) 0 (tPlace commitOnly .waiting)
      ∧ TakenAt (openOffered commitOnly) 0 commitOnly true
      ∧ (openOffered commitOnly).newLines 0 commitOnly = [0x8000]
      ∧ ((openOffered commitOnly).entry 0x8002).map (·.openPart) = some (some 0) :=
  ⟨live_of_check (by decide +kernel), by unfold FreeListLaw; decide +kernel,
    ⟨by decide +kernel, by unfold EntryLaw; decide +kernel⟩, examines_offered (by decide) (by decide) (by decide +kernel),
    ⟨tProfile, tRegion, journaled_of _ _ _ rfl rfl (by decide +kernel), by decide +kernel,
      (by unfold ConflictFree; decide +kernel), (by unfold WithinLimits; decide +kernel), (by unfold NotShort; decide +kernel)⟩,
    by decide +kernel, by decide +kernel⟩

/-- Nobody is granted: every row that names a grant is turned away. -/
theorem test_premises_GrantRowsAreMemoryGrant_others : onl.run = .running ∧ onl.chosen = none := by decide +kernel

/-- The rewrite of a group's COMMIT outstanding, the last of the failed list or not, its response withheld. -/
def commitRewrite (more : List IssuedRecord) : State :=
  (rewriteOut ({ seq := 3, kind := .commit, group := 0 } :: more)).placing 0 [tPlace commitOnly (.withheld 0)]

theorem test_premises_FailedListIsRewritten_commit :
    (∀ more ∈ [[], [({ seq := 4, kind := .filler, group := 0 } : IssuedRecord)]], Live (commitRewrite more)
      ∧ Awaits (commitRewrite more) (tEntry .rewrite tWrite) []
      ∧ (commitRewrite more).journal.failed = { seq := 3, kind := .commit, group := 0 } :: more
      ∧ (commitRewrite more).engine.clear = some (.journal true) ∧ (commitRewrite more).mgmt.running = some .clearFault
      ∧ (commitRewrite more).journal.outstanding = []
      ∧ (commitRewrite more).findGroup 0 = some { tGroup 0 .inDoubt 0 with commitNumber := some 1 }
      ∧ tPlace commitOnly (.withheld 0) ∈ (getV (commitRewrite more).ports 0).places) := by
  intro more hm
  simp only [List.mem_cons, List.not_mem_nil, or_false] at hm
  rcases hm with rfl | rfl <;> exact ⟨live_of_check (by decide +kernel), ⟨rfl, rfl, rfl⟩, by decide +kernel⟩

/-- The same after the CLEAR_FAULT that issued the rewrite has ended; `later` is the step of the one that runs now, if one does. -/
def lateRewrite (later : Option ClearStep) (kind : RecordKind) (more : List IssuedRecord) : State :=
  let s := commitRewrite more
  { s with
    journal := { s.journal with failed := { seq := 3, kind := kind, group := 0 } :: more }
    engine := { s.engine with clear := later }
    mgmt := { s.mgmt with running := later.map fun _ => .clearFault } }

theorem test_premises_FailedListIsRewritten_late :
    ∀ x ∈ [(none, RecordKind.commit, []), (none, .filler, []), (some (ClearStep.journal false), .commit, []),
        (some (.journal false), .filler, []), (some (.journal false), .filler, [({ seq := 4, kind := .filler, group := 0 } : IssuedRecord)])],
      Live (lateRewrite x.1 x.2.1 x.2.2) ∧ Awaits (lateRewrite x.1 x.2.1 x.2.2) (tEntry .rewrite tWrite) []
        ∧ (lateRewrite x.1 x.2.1 x.2.2).journal.failed = { seq := 3, kind := x.2.1, group := 0 } :: x.2.2
        ∧ (lateRewrite x.1 x.2.1 x.2.2).journal.outstanding = []
        ∧ (lateRewrite x.1 x.2.1 x.2.2).engine.clear = x.1 ∧ x.1 ≠ some (.journal true)
        ∧ (x.1.isSome → (lateRewrite x.1 x.2.1 x.2.2).mgmt.running = some .clearFault)
        ∧ (lateRewrite x.1 x.2.1 x.2.2).findGroup 0 = some { tGroup 0 .inDoubt 0 with commitNumber := some 1 } := by
  intro x hx
  simp only [List.mem_cons, List.not_mem_nil, or_false] at hx
  rcases hx with rfl | rfl | rfl | rfl | rfl <;> exact ⟨live_of_check (by decide +kernel), ⟨rfl, rfl, rfl⟩, by decide +kernel⟩

/-- CLEAR_FAULT in its anchor step, the retained anchor's rewrite this far. -/
def anchorStep (rewrite : Option Rewrite) : State :=
  let s := (ckptFaulted none).presenting .checkpoint
  { s with
    ckpt := { s.ckpt with rewrite := rewrite }
    engine := { s.engine with clear := some .anchor }
    mgmt := s.mgmt.runs .clearFault }

theorem test_premises_ServiceEngineGrants_rewrites :
    (∀ w ∈ [none, some { first := some .ok, secondGranted := false, own := true }], Live (anchorStep w)
      ∧ Granted (anchorStep w) .serviceEngine true ∧ (anchorStep w).presentedWork = some .checkpoint
      ∧ (anchorStep w).ckpt.inFlight = none ∧ (anchorStep w).ckpt.retained.isSome
      ∧ (anchorStep w).ckpt.rewrite = w ∧ (anchorStep w).engine.clear = some .anchor)
      ∧ Live (replaying (tReplay true)) ∧ Granted (replaying (tReplay true)) .serviceEngine true
      ∧ (replaying (tReplay true)).presentedWork = some .recovery
      ∧ ((replaying (tReplay true)).recoveryRequest.map (·.1)) = some .replayWrite := by
  refine ⟨?_, live_of_check (by decide +kernel), (by unfold Granted; decide +kernel), by decide +kernel⟩
  intro w hw
  simp only [List.mem_cons, List.not_mem_nil, or_false] at hw
  rcases hw with rfl | rfl <;>
    exact ⟨live_of_check (by decide +kernel), (by unfold Granted; decide +kernel), by decide +kernel⟩

/-- The part with as many requests of recovery outstanding. -/
def State.manyOut (s : State) (p : Purpose) (n : Nat) : State :=
  { s with mem := { s.mem with outstanding := List.replicate n (tEntry p ⟨0, .read 64⟩) } }

theorem test_premises_ServiceEngineGrants_phases :
    (State.reset.service.recovery.phase = some .anchors ∧ State.reset.engine.state = .recovering
        ∧ (State.reset.manyOut .anchorRead 4).liveCount Purpose.isAnchorRead = 4)
      ∧ ¬ ((recovering .scan none).manyOut (.scanRead 6) 8).outstandingOf .serviceEngine < 8
      ∧ ((recovering .replay (some 9)).service.replay = none ∧ (recovering .replay (some 9)).service.recovery.cursor = 6
          ∧ ((6 : Word) - 5).toNat < ((9 : Word) - 5).toNat ∧ ((9 : Word) - 5).toNat ≤ ((9 : Word) - 5).toNat
          ∧ (recovering .replay (some 9)).outstandingOf .serviceEngine < 8)
      ∧ ((replaying (tReplay false)).service.replay = some (tReplay false) ∧ (tReplay false).cursor = 5
          ∧ ((5 : Word) - 5).toNat < ((8 : Word) - 5).toNat)
      ∧ ((tCollected [0]).entries.length ≤ 1 ∧ 4 ≤ ((replaying (tReplay true)).manyOut .replayWrite 4).liveCount Purpose.isReplayWrite)
      ∧ (recovering .close none).service.recovery.phase = some .close
      ∧ ((draining (recovering .close none) []).mem.draining = true ∧ onl.engine.state ≠ .recovering)
      ∧ ((formatting 2 2).engine.activation = some tProfile ∧ (tFormat 2 2).checked = true ∧ (formatting 2 2).mem.path = []
          ∧ (formatDrain 8).service.format.map (·.checked) = some false ∧ (pathWaiting true).mem.path ≠ [])
      ∧ ({ tDigest with next := tDigest.stop }.stop ≤ tDigest.stop
          ∧ 8 ≤ (digesting.manyOut .digestRead 8).liveCount Purpose.isDigestRead) := by decide +kernel

/-- A FAULTED part in this step of CLEAR_FAULT. -/
def State.clearing (s : State) (step : ClearStep) : State :=
  { s with engine := { s.engine with clear := some step }, mgmt := s.mgmt.runs .clearFault }

theorem test_premises_ClearWaits :
    ClearWaits onl 0 ∧ ClearWaits (anchorStep none) 1
      ∧ ClearWaits (rewriteOut [{ seq := 3, kind := .entry 0, group := 0 }]) 0
      ∧ ClearWaits ((applyOut (faulted [.applyWrite]) (tApply 1 1 0 false)).clearing (.apply true)) 1
      ∧ ClearWaits ((applyOut (faulted [.applyWrite]) (tApply 1 2 0 true)).clearing (.apply false)) 1 :=
  ⟨trivial, trivial, List.cons_ne_nil _ _, ⟨_, rfl, .inl rfl⟩, ⟨_, rfl, .inr (by decide)⟩⟩

/-- A record outstanding in FAULTED: its cause is in the set, is new, or is new to a running CLEAR_FAULT. -/
theorem test_premises_RecordFailureFaults_joins :
    (∀ s ∈ [journalFaulted, faulted [.applyWrite], (ckptFaulted none).clearing .anchor], Live (recordOut s .filler)
      ∧ Awaits (recordOut s .filler) (tEntry .record tWrite) [] ∧ (recordOut s .filler).engine.state = .faulted
      ∧ (recordOut s .filler).journal.outstanding = [{ seq := 0, kind := .filler, group := 0 }])
      ∧ FaultCause.journalWrite ∈ journalFaulted.engine.causes
      ∧ FaultCause.journalWrite ∉ (faulted [.applyWrite]).engine.causes ∧ (faulted [.applyWrite]).engine.clear = none
      ∧ FaultCause.journalWrite ∉ (ckptFaulted none).engine.causes
      ∧ ((ckptFaulted none).clearing .anchor).mgmt.running = some .clearFault := by
  refine ⟨?_, by decide +kernel⟩
  intro s hs
  simp only [List.mem_cons, List.not_mem_nil, or_false] at hs
  rcases hs with rfl | rfl | rfl <;> exact ⟨live_of_check (by decide +kernel), ⟨rfl, rfl, rfl⟩, by decide +kernel⟩

/-- The apply step of CLEAR_FAULT: waiting for the old attempt's last write, or at the last write of its own attempt. -/
theorem test_premises_apply_step :
    ∀ x ∈ [(ClearStep.apply false, tApply 1 1 0 true), (.apply true, tApply 1 1 0 false)],
      ∃ s, s = (applyOut (faulted [.applyWrite]) x.2).clearing x.1 ∧ Live s ∧ Awaits s (tEntry .homeWrite tWrite) []
        ∧ s.apply = some x.2 ∧ x.2.outstanding = 1 ∧ s.engine.state = .faulted ∧ s.mgmt.running = some .clearFault
        ∧ s.findGroup 0 = some { tGroup 0 .applying 0 with commitNumber := some 1 } ∧ x.2.acked + 1 = 1 := by
  intro x hx
  simp only [List.mem_cons, List.not_mem_nil, or_false] at hx
  rcases hx with rfl | rfl <;> exact ⟨_, rfl, live_of_check (by decide +kernel), ⟨rfl, rfl, rfl⟩, by decide +kernel⟩

/-- The part with RESTART running. -/
def State.restarting (s : State) : State := { s with mgmt := s.mgmt.runs .restart }

/-- The end of a recovery that RESTART runs, and the failure of its closing checkpoint; a failed checkpoint in FAULTED. -/
theorem test_premises_recovery_and_faulted_checkpoints :
    (Live (flightOut (recovering .close none).restarting (tFlight (some .recovery) (some .ok) true) true)
      ∧ (recovering .close none).restarting.mgmt.running = some .restart
      ∧ (recovering .close none).restarting.engine.state = .recovering
      ∧ (∀ st, getV (recovering .close none).restarting.holds st = none))
      ∧ Live (flightOut journalFaulted (tFlight none (some .error) true) true)
      ∧ Awaits (flightOut journalFaulted (tFlight none (some .error) true) true) (tEntry (.anchorHalf true false) tWrite) []
      ∧ journalFaulted.engine.state = .faulted :=
  ⟨⟨live_of_check (by decide +kernel), by decide +kernel⟩, live_of_check (by decide +kernel), ⟨rfl, rfl, rfl⟩, rfl⟩

/-- A half of the retained anchor's rewrite outstanding, under the CLEAR_FAULT that issued it or after its end. -/
theorem test_premises_rewrite_halves :
    ∀ x ∈ [(false, (none : Option MemStatus), true), (true, some .error, true), (true, some .ok, false)],
      ∃ s w, s = (anchorStep (some w)).awaiting (.anchorHalf x.1 true) tWrite ∧ Live s
        ∧ Awaits s (tEntry (.anchorHalf x.1 true) tWrite) [] ∧ s.ckpt.rewrite = some w ∧ w.first = x.2.1 ∧ w.own = x.2.2
        ∧ s.mgmt.running = some .clearFault := by
  intro x hx
  simp only [List.mem_cons, List.not_mem_nil, or_false] at hx
  rcases hx with rfl | rfl | rfl
  · exact ⟨_, { first := none, secondGranted := true, own := true }, rfl, live_of_check (by decide +kernel), ⟨rfl, rfl, rfl⟩,
      rfl, rfl, rfl, rfl⟩
  · exact ⟨_, { first := some .error, secondGranted := true, own := true }, rfl, live_of_check (by decide +kernel),
      ⟨rfl, rfl, rfl⟩, rfl, rfl, rfl, rfl⟩
  · exact ⟨_, { first := some .ok, secondGranted := true, own := false }, rfl, live_of_check (by decide +kernel),
      ⟨rfl, rfl, rfl⟩, rfl, rfl, rfl, rfl⟩

/-- A last record before the COMMIT that is a matching ENTRY, of a line collected before or not. -/
theorem test_premises_CollectionFillsAndCounts_last :
    let data := entryRecord 7 7 (tGroup 0 .open 0) 0x8002 (List.replicate 32 (some 1))
    MemRequest.fits ⟨0, .read 64⟩ (.ok data) = true
      ∧ readRecord 7 7 data = some (.entry (tReplay false).stream (tCollected [0]).number 0x8002 (List.replicate 32 (some 1)))
      ∧ (7 : Word) + 1 = (tReplay false).seq
      ∧ (collecting (tReplay false) [0] 7).slotFor (tCollected [0]) 0x8002 = some 0
      ∧ (collecting (tReplay false) [] 7).slotFor (tCollected []) 0x8002 = none
      ∧ (collecting (tReplay false) [] 7).pool.free ≠ []
      ∧ { tReplay false with matched := 0 }.matched + 1 = (tReplay false).entryCount.toNat := by decide +kernel

/-- A profile whose region 0 is this one and whose streams 0 and 1 are these. -/
def streams01 (a b : StreamEntry) : Profile :=
  { Profile.coldReset with
    regions := setV (Vector.replicate 6 Region.disabled) 0 tRegion
    streams := setV (setV (Vector.replicate 8 StreamEntry.disabled) 0 a) 1 b }

/-- A profile that fails each test of an item, the tests before it passed. -/
theorem test_validation_each_test :
    regionFault (regions01 tRegion tRegion) 0 1024 1 = some 3
      ∧ regionFault (regions01 tRegion { tRegion with base := 0x10000 }) 0 1024 1 = some 4
      ∧ streamFault (streams01 (tStream 0x200000 0x300000 1) StreamEntry.disabled) 0 1024 0 = some 2
      ∧ streamFault (streams01 (tStream 0x100000 0x100008 1) StreamEntry.disabled) 0 1024 0 = some 3
      ∧ streamFault (streams01 (tStream 0x100000 0x300000 1) (tStream 0x100000 0x300008 1)) 0 1024 1 = some 4
      ∧ streamFault (streams01 (tStream 0x100000 0x300000 0) StreamEntry.disabled) 0 1024 0 = some 5
      ∧ profileFault { streams01 StreamEntry.disabled StreamEntry.disabled with openReserve := 129 } 0 1024 = some (16, 1) := by
  decide +kernel

theorem test_premises_DiscardOpenDiscardsEveryOpenGroup_groups :
    recordFront.openGroups = [(0, tGroup 0 .open 0)] ∧ onl.openGroups = []
      ∧ ((recordFront.holding oneLine .space [] 0).heldPlace 0).isSome = true := by decide +kernel

/-- CLEAR_FAULT taken with all three causes, and the end of its anchor step answering recovery. -/
theorem test_premises_ClearFaultWorksThroughItsSteps_causes :
    (∃ s, Live s ∧ s.mgmt.running = none ∧ s.engine.state = .faulted
      ∧ s.engine.causes = [.journalWrite, .applyWrite, .checkpointWrite] ∧ (∀ c ∈ s.engine.causes, c.onlineSide = true)
      ∧ s.journal.failed = [] ∧ s.journal.outstanding = [])
      ∧ Live (rewriteHalfOut (some .recovery)) ∧ Awaits (rewriteHalfOut (some .recovery)) (tEntry (.anchorHalf true true) tWrite) []
      ∧ (rewriteHalfOut (some .recovery)).mgmt.running = some .clearFault :=
  ⟨⟨faulted [.journalWrite, .applyWrite, .checkpointWrite], live_of_check (by decide +kernel), by decide +kernel⟩,
    live_of_check (by decide +kernel), ⟨rfl, rfl, rfl⟩, rfl⟩

theorem test_premises_FormatChecksAndBegins_nothing_outstanding :
    ∀ x ∈ [((8 : Word), (0 : Word)), (8, 7), (8, 8)], ∃ s, s = journalFaulted.withArgs x.1 x.2 0 ∧ Live s ∧ s.mgmt.running = none
      ∧ s.engine.state = .faulted ∧ s.mem.outstanding = [] ∧ (getV s.mgmt.args 0).toNat ≤ 8 ∧ getV s.mgmt.args 1 = x.2 := by
  intro x hx
  simp only [List.mem_cons, List.not_mem_nil, or_false] at hx
  rcases hx with rfl | rfl | rfl <;> exact ⟨_, rfl, live_of_check (by decide +kernel), by decide +kernel⟩

theorem test_premises_ManagementFramesAct_codes :
    (∀ n ∈ [(2 : Word), 3, 4, 6, 7, 8, 9], ∃ c, (n.setWidth 8, c) ∈ [(1#8, Instr.quiesce), (2#8, .resume), (3#8, .discardOpen),
        (4#8, .clearFault), (5#8, .restart), (6#8, .format), (7#8, .digest), (8#8, .abortDigest), (9#8, .stageFromActive)])
      ∧ unknownCode ((0x14D : Word).setWidth 8) = true ∧ (1 : Word).getLsbD 31 = false := by
  refine ⟨?_, by decide⟩
  intro n hn
  simp only [List.mem_cons, List.not_mem_nil, or_false] at hn
  rcases hn with rfl | rfl | rfl | rfl | rfl | rfl | rfl
  · exact ⟨.resume, by decide⟩
  · exact ⟨.discardOpen, by decide⟩
  · exact ⟨.clearFault, by decide⟩
  · exact ⟨.format, by decide⟩
  · exact ⟨.digest, by decide⟩
  · exact ⟨.abortDigest, by decide⟩
  · exact ⟨.stageFromActive, by decide⟩

/-- The part with these bits of a frame clocked in. -/
def State.inFrame (s : State) (bits : List Bool) (sampled : Option Word) (captured : Option Captured) : State :=
  { s with mgmt := { s.mgmt with frame := some { bits := bits, sampled := sampled, captured := captured } } }

/-- Command byte 0x89, a read of EVENT0 written out from R175 and R187; 0x57, a write to register 0x17 with bit 6 set. -/
def readEvent0 : List Bool := [true, false, false, false, true, false, false, true]
def writeWord0 : List Bool := [false, true, false, true, false, true, true, true]

theorem test_frame_heads :
    frameHead (frameCommand readEvent0) = { read := true, number := 0x09 }
      ∧ frameHead (frameCommand writeWord0) = { read := false, number := 0x17 }
      ∧ frameData (writeWord0 ++ readEvent0 ++ writeWord0 ++ List.replicate 16 true) = 0x8957FFFF := by decide

theorem test_premises_FramesAreClockedBitByBit :
    Live onl ∧ onl.mgmt.frame = none
      ∧ (∀ x ∈ [([], none), (readEvent0.take 7, none), (writeWord0.take 7, none), (readEvent0 ++ List.replicate 31 false, some 6),
          (writeWord0 ++ List.replicate 31 true, none), (writeWord0 ++ List.replicate 32 true, none)],
        Live ((withEvents (tEvents 1)).inFrame x.1 x.2 (x.2.map fun _ => ⟨1, 2, 3⟩)))
      ∧ (readEvent0.take 7).length = 7 ∧ readEvent0.take 7 ++ [(1 : Word).getLsbD 0] = readEvent0
      ∧ writeWord0.take 7 ++ [(1 : Word).getLsbD 0] = writeWord0
      ∧ (readEvent0 ++ List.replicate 31 false).length = 39 ∧ (writeWord0 ++ List.replicate 31 true).length = 39
      ∧ (writeWord0 ++ List.replicate 32 true).length = 40
      ∧ (withEvents (tEvents 1)).mgmt.events = .state .online :: [.state .quiesced] ∧ onl.mgmt.events = [] := by
  refine ⟨live_of_check (by decide +kernel), rfl, ?_, by decide⟩
  intro x hx
  simp only [List.mem_cons, List.not_mem_nil, or_false] at hx
  rcases hx with rfl | rfl | rfl | rfl | rfl | rfl <;> exact live_of_check (by decide +kernel)

/-! ### One step each -/

theorem test_step_resetAssert : (after .resetAssert onl).map (·.run) = some .inReset := by decide +kernel

theorem test_step_resetRelease : (after (.resetRelease 5) onl).map (fun t => (t.abase, t.engine.state)) = some (5, .recovering) := by
  decide +kernel

theorem test_step_powerLoss : (after .powerLoss onl).map (fun t => (t.run, t.profile.isSome)) = some (.powerOff, false) := by
  decide +kernel

theorem test_step_requestTake : (after (.requestTake oneLine) onl).map (·.taken 0) = some 1 := by decide +kernel

theorem test_step_admission_takes :
    (after (.admission 0) (onl.offered oneLine)).map (fun t => (t.out.responses, t.journal.queue, t.openLength 0))
      = some ([⟨0, 0, .ok []⟩], [{ kind := .entry 0, group := 0 }], 1) := by decide +kernel

theorem test_step_admission_seals :
    (after (.admission 0) (onl.offered commitOnly)).map (fun t => (t.out.responses, t.journal.queue.map (·.kind), t.openCount,
      t.groups.pipeline.map (·.state))) = some ([], [.entry 0, .commit], 0, [.sealing]) := by decide +kernel

theorem test_step_reExamination :
    (after (.reExamination 0) (onl.holding oneLine .space [] 1)).map (fun t => (t.out.responses, getV t.holds 0))
      = some ([⟨0, 0, .ok []⟩], none) := by decide +kernel

theorem test_step_holdExpiry :
    (after (.holdExpiry 0) { onl.holding oneLine .space [] 0 with now := 100 }).map (fun t => (t.out.responses, t.mgmt.declines))
      = some ([⟨0, 0, .declined .holdExpired⟩], 1) := by decide +kernel

theorem test_step_memoryGrant_reads_anchor :
    (after .memoryGrant State.reset).map (·.out.issued) = some (some ⟨0, .read 128⟩) := by decide +kernel

theorem test_step_recordIssue :
    (after .recordIssue recordFront).map (fun t => (t.journal.head, t.journal.outstanding, t.out.issued.map (·.addr)))
      = some (1, [{ seq := 0, kind := .entry 0, group := 0 }], some 4096) := by decide +kernel

theorem test_step_capture :
    (after .capture (pathWaiting true)).map (fun t => (t.out.issued, t.mem.path.length)) = some (some ⟨0x100020, .read 8⟩, 0) := by
  decide +kernel

theorem test_step_passThroughGrant :
    (after .passThroughGrant (pathWaiting false)).map (·.out.issued) = some (some ⟨0x100020, .read 8⟩) := by decide +kernel

theorem test_step_homeWriteIssue :
    (after .homeWriteIssue applying).map (fun t => (t.apply, t.out.issued.map (·.addr))) = some (some (tApply 1 1 0 false), some 0x100040) := by
  decide +kernel

theorem test_step_checkpointIssue :
    (after .checkpointIssue ckptWanted).map (fun t => (t.ckpt.pending, t.ckpt.inFlight.map (·.copy), t.out.issued.map (·.addr)))
      = some (false, some .a, some 0) := by decide +kernel

theorem test_step_serviceRequestGrant :
    (after .serviceRequestGrant digesting).map (·.out.issued) = some (some ⟨0x300000, .read 128⟩) := by decide +kernel

theorem test_step_rewriteIssue :
    (after .rewriteIssue rewriting).map (fun t => (t.out.issued.map (·.addr), t.journal.head)) = some (some 4288, 0) := by
  decide +kernel

theorem test_step_recordAcknowledgement :
    (after .recordAcknowledgement commitOut).map (fun t => (t.out.responses, t.mgmt.commits, t.groups.pipeline.map (·.state)))
      = some ([⟨0, 0, .ok []⟩], 1, [.sealed]) := by decide +kernel

theorem test_step_recordFailure :
    (after .recordFailure commitOut).map (fun t => (t.engine.state, t.groups.pipeline.map (·.state), t.journal.failed.length))
      = some (.faulted, [.inDoubt], 1) := by decide +kernel

theorem test_step_rewriteAcknowledgement :
    (after (.rewriteAcknowledgement .ok) (rewriteOut [{ seq := 3, kind := .entry 0, group := 0 }])).map
      (fun t => (t.engine.state, t.mgmt.records, t.mgmt.running)) = some (.online, 1, none) := by decide +kernel

theorem test_step_startOfApply :
    (after .startOfApply (onl.withPipeline .sealed)).map (·.apply) = some (some (tApply 0 0 0 false)) := by decide +kernel

theorem test_step_homeWriteAcknowledgement_retires :
    (after .homeWriteAcknowledgement (applyOut onl (tApply 1 1 0 false))).map
      (fun t => (t.apply, t.groups.pipeline, t.freeSlots, t.ckpt.retiredThrough)) = some (none, [], 256, 1) := by decide +kernel

theorem test_step_applyFailure :
    (after .applyFailure (applyOut onl (tApply 1 1 0 false))).map (fun t => (t.engine.state, t.apply))
      = some (.faulted, some (tApply 1 0 0 true)) := by decide +kernel

theorem test_step_checkpointAcknowledgement :
    (after .checkpointAcknowledgement (flightOut (tState .quiescing) (tFlight (some .quiesce) (some .ok) true) true)).map
      (fun t => (t.engine.state, t.ckpt.durableTail, t.ckpt.lastCopy)) = some (.quiesced, 5, some .b) := by decide +kernel

theorem test_step_checkpointFailure :
    (after (.checkpointFailure .error) (flightOut onl (tFlight none (some .ok) true) true)).map
      (fun t => (t.engine.state, t.ckpt.durableTail, t.ckpt.retained.isSome)) = some (.faulted, 0, true) := by decide +kernel

theorem test_step_anchorFirstHalfCompletion :
    (after (.anchorFirstHalfCompletion .error) (flightOut onl (tFlight none none false) false)).map
      (fun t => t.ckpt.inFlight.map (·.first)) = some (some (some .error)) := by decide +kernel

theorem test_step_passThroughCompletion :
    (after (.passThroughCompletion (.ok [1, 2]))
        ((onl.placing 0 [tPlace (rd 0 0x300000 2) .passed]).awaiting (.passThrough 0 0) (tRead 2))).map (·.out.responses)
      = some [⟨0, 1, .ok [1, 2]⟩] := by decide +kernel

theorem test_step_homeReadDataReturn_merges :
    let cells := (List.replicate 128 none).set 33 (some 7)
    (after (.homeReadDataReturn (.ok [1, 2]))
        ((onl.placing 0 [{ tPlace (rd 0 0x100020 2) .reading with buffer := some { newOverlay regionRead with cells := cells } }]).awaiting
          (.homeRead 0 0) (tRead 2))).map (·.out.responses)
      = some [⟨0, 1, .ok [1, 7]⟩] := by decide +kernel

theorem test_step_drainCompletion :
    (after .drainCompletion (draining onl [tEntry .record tWrite])).map (fun t => (t.mem, t.service.recovery))
      = some (MemoryPort.idle, Recovery.empty) := by decide +kernel

theorem test_step_anchorReadCompletion_unformatted :
    (after (.anchorReadCompletion (.ok blankHalf)) (anchorOut [.ok blankHalf, .ok blankHalf, .ok blankHalf])).map (·.engine.state)
      = some .unformatted := by decide +kernel

theorem test_step_scanReadCompletion_fixes_head :
    (after (.scanReadCompletion (.ok (List.replicate 64 0))) (readingRecord (recovering .scan none) (.scanRead 6))).map
      (fun t => (t.service.recovery.phase, t.service.recovery.scannedHead)) = some (some .replay, some 6) := by decide +kernel

/-- A clean ring: the scan of the tail ends recovery's replay and asks for the closing checkpoint. -/
theorem test_step_scanReadCompletion_clean_ring :
    (after (.scanReadCompletion (.ok (List.replicate 64 0))) (readingRecord (recovering .scan none) (.scanRead 5))).map
      (fun t => (t.service.recovery.phase, t.journal.head, t.ckpt.request)) = some (some .close, 13, some .recovery) := by
  decide +kernel

/-- A COMMIT at the tail that counts a line it cannot have collected. -/
theorem test_step_walkReadCompletion_commit_at_tail :
    (after (.walkReadCompletion (.ok (tCommitAtTail false))) (walking 5)).map (fun t => (t.engine.state, t.engine.causes))
      = some (.faulted, [.recoveryMismatch]) := by decide +kernel

theorem test_step_walkReadCompletion_closes :
    (after (.walkReadCompletion (.ok (fillerRecord 7 8))) (walking 8)).map (fun t => (t.service.recovery.phase, t.journal.head))
      = some (some .close, 17) := by decide +kernel

theorem test_step_replayWriteCompletion :
    (after (.replayWriteCompletion .ok) (replayOut (tReplay true))).map
      (fun t => (t.service.recovery.groupsReplayed, t.groups.replaying, t.freeSlots)) = some (1, none, 256) := by decide +kernel

theorem test_step_replayWriteCompletion_at_head :
    (after (.replayWriteCompletion .ok) lastReplayOut).map
      (fun t => (t.service.recovery.phase, t.ckpt.durableTail, t.ckpt.retiredThrough)) = some (some .close, 17, 2) := by decide +kernel

theorem test_step_formatAnchorWriteCompletion :
    (after (.formatAnchorWriteCompletion .ok) ((formatting 4 3).awaiting .formatWrite tWrite)).map
      (fun t => (t.engine.state, t.ckpt.number, t.mgmt.result.result)) = some (.online, 2, .done) := by decide +kernel

theorem test_step_digestReadCompletion :
    (after (.digestReadCompletion (.ok blankHalf)) digestOut).map (fun t => t.service.digest.map (·.processed)) = some (some 128) := by
  decide +kernel

theorem test_step_quiesce :
    (after .quiesce onl).map (fun t => (t.engine.state, t.ckpt.request, t.mgmt.events))
      = some (.quiescing, some .quiesce, [.commandDone 1 .done]) := by decide +kernel

theorem test_step_resume :
    (after .resume (tState .quiesced)).map (fun t => (t.mgmt.running, t.ckpt.request)) = some (some .resume, some .resume) := by
  decide +kernel

theorem test_step_discardOpen :
    (after .discardOpen recordFront).map (fun t => (t.openCount, t.freeSlots, t.index, t.journal.queue, t.mgmt.discards))
      = some (0, 256, [], [], 1) := by decide +kernel

theorem test_step_clearFault :
    (after .clearFault (ckptFaulted none)).map (fun t => (t.mgmt.running, t.engine.clear)) = some (some .clearFault, some .anchor) := by
  decide +kernel

theorem test_step_restart :
    (after .restart (onl.offered oneLine)).map (fun t => (t.out.responses, t.engine.state, t.mgmt.running))
      = some ([⟨0, 0, .retracted⟩], .recovering, some .restart) := by decide +kernel

theorem test_step_format :
    (after .format ((tState .quiesced).withArgs 0 8 0)).map (fun t => (t.mgmt.running, t.service.format))
      = some (some .format, some (tFormat 0 0)) := by decide +kernel

theorem test_step_digest :
    (after .digest ((tState .quiesced).withArgs 0x300000 0x100 0)).map (·.service.digest) = some (some tDigest) := by decide +kernel

theorem test_step_abortDigest :
    (after .abortDigest digesting).map (fun t => (t.service.digest, t.mgmt.result.result, t.mgmt.running)) = some (none, .aborted, none) := by
  decide +kernel

theorem test_step_stageFromActive :
    (after .stageFromActive (badStaging onl)).map (·.engine.staging.openReserve) = some 24 := by decide +kernel

theorem test_step_unknownCommand :
    (after (.unknownCommand 77) onl).map (fun t => (t.mgmt.result.code, t.mgmt.result.result)) = some (77, .badArgument) := by
  decide +kernel

theorem test_step_eventPop :
    (after .eventPop (withEvents (tEvents 1))).map (fun t => (t.out.shifted, t.mgmt.latch3, t.mgmt.events.length))
      = some (some 6, 2, 1) := by decide +kernel

theorem test_step_intEnableWrite :
    (after (.intEnableWrite 0) (withEvents (tEvents 1))).map (·.intPin) = some false ∧ (withEvents (tEvents 1)).intPin = true := by
  decide +kernel

/-- The words of a DECLINE and of a COMMAND_DONE record as the tables of R179 and R187 lay them out. -/
theorem test_event_words :
    ((Event.decline 5 0x912345678 .overflow 2).word0, (Event.decline 5 0x912345678 .overflow 2).word2,
        (Event.decline 5 0x912345678 .overflow 2).word3) = (0x190009D1, 0x12345678, 2)
      ∧ ((Event.commandDone 5 .aborted).word0, (Event.commandDone 5 .aborted).word3) = (8, 0x805) := by decide +kernel

theorem test_step_lostClear :
    (after .lostClear { onl with mgmt := { onl.mgmt with lost := 255 } }).map (·.mgmt.lost) = some 0 := by decide +kernel

theorem test_step_profileDataWrite :
    (after (.profileDataWrite 1 130) onl).map (·.engine.staging.openReserve) = some 130 := by decide +kernel

/-- RESTART keeps the active profile, and the profile data words show it before an anchor is loaded (log entry 26). -/
theorem test_restart_shows_the_kept_profile :
    (after .restart { onl with mgmt := { onl.mgmt with selectActive := true } }).map
      (fun t => (t.engine.state, t.service.recovery.phase, decide (t.profile = onl.profile), decide (t.shownProfile = t.profile)))
      = some (.recovering, some .anchors, true, true) := by decide +kernel

theorem test_step_registerWrite :
    (after (.registerWrite (.write 0x16) 0x31) onl).map (fun t => (t.mgmt.selectActive, t.mgmt.selectItem)) = some (true, 3) := by decide +kernel

/-- Frames of 40 bits clocked in: the last bit of a write applies it, the last bit of a read of EVENT0 pops. -/
theorem test_step_registerWrite_frame_write :
    (after (.registerWrite .clock 1) (onl.inFrame (writeWord0 ++ List.replicate 31 true) none none)).map
      (fun t => (t.out.miso, (getV t.engine.staging.regions 0).base, t.engine.staging.holdLimit)) = some (none, 0x100000, 0xFFFF) := by
  decide +kernel

theorem test_step_registerWrite_frame_read :
    (after (.registerWrite .clock 0)
        ((withEvents (tEvents 1)).inFrame (readEvent0 ++ List.replicate 31 false) (some 6) (some ⟨1, 2, 3⟩))).map
      (fun t => (t.out.miso, t.mgmt.events, t.mgmt.latch1, t.mgmt.latch3)) = some (some false, [.state .quiesced], 1, 3) := by
  decide +kernel

end Sys2Proof.Machine
end

section
/-! SUPPORT. The slots and identities that the groups hold, and the laws of them (R12, R23). -/

namespace Sys2Proof.Machine

set_option Elab.async false

/-! ### What the three laws speak of -/

/-- The three laws that every step keeps together (R12, R23, R153). -/
def Lawful (s : State) : Prop := FreeListLaw s ∧ RefLaw s ∧ ReplayLaw s

/-- Every descriptor in use, in the order of the laws. -/
def GroupTable.held (t : GroupTable) : List Group := t.opens.toList.filterMap id ++ t.pipeline ++ t.replaying.toList

/-- What the laws read of a descriptor. -/
def Group.key (g : Group) : Nat × List SlotId := (g.ref, g.entries)

/-- The laws, said of the keys of the descriptors in use. -/
theorem lawful_iff (s : State) : Lawful s ↔
    (s.pool.free ++ (s.groups.held.map Group.key).flatMap (·.2)).Perm allSlots
      ∧ ((s.groups.held.map Group.key).map (·.1)).Nodup
      ∧ (∀ k ∈ s.groups.held.map Group.key, k.1 < s.groups.nextRef)
      ∧ (∀ a, s.apply = some a → a.group ∈ (s.groups.pipeline.map Group.key).map (·.1))
      ∧ s.groups.replaying.isSome = s.service.replay.isSome
      ∧ (s.groups.replaying.isSome → ∀ e ∈ s.mem.outstanding, e.purpose.isWalkRead = true → e.live = false) := by
  have hslots : (s.groups.held.map Group.key).flatMap (·.2) = s.slotsInUse := by
    simp [State.slotsInUse, GroupTable.held, List.flatMap_map, Group.key]
  have hrefs : (s.groups.held.map Group.key).map (·.1) = s.groups.held.map (·.ref) := by simp [Group.key]
  have happly : ∀ n, n ∈ (s.groups.pipeline.map Group.key).map (·.1) ↔ ∃ g ∈ s.groups.pipeline, g.ref = n := by
    simp [Group.key]
  have hlt : (∀ k ∈ s.groups.held.map Group.key, k.1 < s.groups.nextRef) ↔ ∀ g ∈ s.groups.held, g.ref < s.groups.nextRef := by
    simp [Group.key]
  simp only [Lawful, FreeListLaw, RefLaw, ReplayLaw, hslots, hrefs, happly, hlt, and_assoc]
  rfl

/-- `t` has the groups, slots, apply group and replay of `s` as far as the laws speak of them, and wants no more reads of the
walk than `s`. -/
structure SameHoldings (s t : State) : Prop where
  opens : ∀ st, (getV t.groups.opens st).map Group.key = (getV s.groups.opens st).map Group.key
  pipeline : t.groups.pipeline.map Group.key = s.groups.pipeline.map Group.key
  replaying : t.groups.replaying.map Group.key = s.groups.replaying.map Group.key
  nextRef : t.groups.nextRef = s.groups.nextRef
  free : t.pool.free = s.pool.free
  apply : ∀ a, t.apply = some a → ∃ b, s.apply = some b ∧ b.group = a.group
  replay : t.service.replay.isSome = s.service.replay.isSome
  walk : ∀ e ∈ t.mem.outstanding, e.purpose.isWalkRead = true → e.live = true → e ∈ s.mem.outstanding

theorem SameHoldings.trans {s t u : State} (h : SameHoldings s t) (h' : SameHoldings t u) : SameHoldings s u where
  opens st := (h'.opens st).trans (h.opens st)
  pipeline := h'.pipeline.trans h.pipeline
  replaying := h'.replaying.trans h.replaying
  nextRef := h'.nextRef.trans h.nextRef
  free := h'.free.trans h.free
  apply a ha := by
    obtain ⟨b, hb, hba⟩ := h'.apply a ha
    obtain ⟨c, hc, hcb⟩ := h.apply b hb
    exact ⟨c, hc, hcb.trans hba⟩
  replay := h'.replay.trans h.replay
  walk e he hw hl := h.walk e (h'.walk e he hw hl) hw hl

/-- An operation that leaves these five parts as they are. -/
theorem SameHoldings.of_keeps {s t : State} (hg : t.groups = s.groups := by simp) (hp : t.pool.free = s.pool.free := by simp)
    (ha : t.apply = s.apply := by simp) (hr : t.service.replay = s.service.replay := by simp)
    (hm : t.mem.outstanding = s.mem.outstanding := by simp) : SameHoldings s t where
  opens st := by rw [hg]
  pipeline := by rw [hg]
  replaying := by rw [hg]
  nextRef := by rw [hg]
  free := hp
  apply a h := ⟨a, ha ▸ h, rfl⟩
  replay := by rw [hr]
  walk e he _ _ := hm ▸ he

theorem filterMap_id_map_key (v : Vector (Option Group) 8) :
    (v.toList.filterMap id).map Group.key = (allStreams.map fun st => (getV v st).map Group.key).filterMap id := by
  rw [toList_eight, List.filterMap_map, List.filterMap_map, List.map_filterMap]
  rfl

theorem SameHoldings.keys {s t : State} (h : SameHoldings s t) :
    t.groups.held.map Group.key = s.groups.held.map Group.key := by
  have hr : t.groups.replaying.toList.map Group.key = s.groups.replaying.toList.map Group.key := by
    rw [← Option.toList_map, ← Option.toList_map, h.replaying]
  simp only [GroupTable.held, List.map_append, filterMap_id_map_key, h.opens, h.pipeline, hr]

/-- The laws pass to a state with the same holdings. -/
theorem SameHoldings.lawful {s t : State} (h : SameHoldings s t) (hs : Lawful s) : Lawful t := by
  rw [lawful_iff] at hs ⊢
  obtain ⟨hfree, hnodup, hlt, happly, hreplay, hwalk⟩ := hs
  have hsome : t.groups.replaying.isSome = s.groups.replaying.isSome := by
    simpa using congrArg Option.isSome h.replaying
  refine ⟨?_, ?_, ?_, ?_, ?_, ?_⟩
  · rw [h.keys, h.free]; exact hfree
  · rw [h.keys]; exact hnodup
  · rw [h.keys, h.nextRef]; exact hlt
  · intro a ha
    obtain ⟨b, hb, hba⟩ := h.apply a ha
    rw [h.pipeline, ← hba]
    exact happly b hb
  · rw [hsome, h.replay, hreplay]
  · intro hr e he hw
    by_contra hl
    have hl := Bool.not_eq_false _ ▸ hl
    have := hwalk (hsome ▸ hr) e (h.walk e he hw hl) hw
    simp_all

theorem Lawful.keep {s t : State} (hs : Lawful s) (h : SameHoldings s t) : Lawful t := h.lawful hs

/-! ### Descriptors that change -/

/-- A change of descriptors that keeps identities and entry lists. -/
theorem sameHoldings_updateGroup (s : State) (ref : Nat) {f : Group → Group} (hf : ∀ g, (f g).key = g.key) :
    SameHoldings s (s.updateGroup ref f) where
  opens st := by
    simp only [State.updateGroup, GroupTable.update, getV_mapV, Option.map_map]
    congr 1; funext g
    simp only [Function.comp_apply]; split <;> simp [hf]
  pipeline := by
    simp only [State.updateGroup, GroupTable.update, List.map_map]
    congr 1; funext g
    simp only [Function.comp_apply]; split <;> simp [hf]
  replaying := rfl
  nextRef := rfl
  free := rfl
  apply a h := ⟨a, h, rfl⟩
  replay := rfl
  walk e he _ _ := he

/-- The open descriptors around that of one stream. -/
theorem opens_around (v : Vector (Option Group) 8) (st : Stream) :
    ∃ before behind, ∀ x, (setV v st x).toList.filterMap id = before ++ x.toList ++ behind := by
  refine ⟨(v.toList.take st.val).filterMap id, (v.toList.drop (st.val + 1)).filterMap id, fun x => ?_⟩
  have hlen : st.val < v.toList.length := by simp
  simp only [setV, Vector.toList_set, List.set_eq_take_append_cons_drop, hlen, if_true, List.filterMap_append]
  cases x <;> simp

theorem setV_getV {α : Type} {n : Nat} (v : Vector α n) (i : Fin n) : setV v i (getV v i) = v := by
  apply tables_ext
  intro j
  rw [getV_setV]
  split
  · rename_i h; rw [h]
  · rfl

theorem setV_setV {α : Type} {n : Nat} (v : Vector α n) (i : Fin n) (x y : α) : setV (setV v i x) i y = setV v i y := by
  simp [setV]

end Sys2Proof.Machine
end

section
/-! SUPPORT. The laws when a descriptor is filled, moves to the pipeline or becomes free. -/

namespace Sys2Proof.Machine

set_option Elab.async false

/-! ### Descriptors that are filled, move or become free -/

/-- The laws pass to a state whose descriptors and free list hold the same slots, with identities that stay distinct and
given out. -/
theorem Lawful.of_perm {s t : State} {K K' : List (Nat × List SlotId)} (hs : Lawful s)
    (hK : (s.groups.held.map Group.key).Perm K) (hK' : (t.groups.held.map Group.key).Perm K')
    (hfree : (t.pool.free ++ K'.flatMap (·.2)).Perm (s.pool.free ++ K.flatMap (·.2)))
    (hrefs : (K.map (·.1)).Nodup → (∀ k ∈ K, k.1 < s.groups.nextRef) →
      (K'.map (·.1)).Nodup ∧ ∀ k ∈ K', k.1 < t.groups.nextRef)
    (happly : ∀ a, t.apply = some a → a.group ∈ (t.groups.pipeline.map Group.key).map (·.1))
    (hreplay : t.groups.replaying.isSome = t.service.replay.isSome)
    (hwalk : t.groups.replaying.isSome → ∀ e ∈ t.mem.outstanding, e.purpose.isWalkRead = true → e.live = false) :
    Lawful t := by
  obtain ⟨hf, hnodup, hlt, -⟩ := (lawful_iff s).1 hs
  obtain ⟨hnodup', hlt'⟩ := hrefs ((hK.map _).nodup_iff.1 hnodup) fun k hk => hlt k (hK.mem_iff.2 hk)
  refine (lawful_iff t).2 ⟨?_, (hK'.map _).nodup_iff.2 hnodup', fun k hk => hlt' k (hK'.mem_iff.1 hk), happly, hreplay, hwalk⟩
  have hmid : (t.pool.free ++ (t.groups.held.map Group.key).flatMap (·.2)).Perm (s.pool.free ++ K.flatMap (·.2)) :=
    ((hK'.flatMap_right _).append_left _).trans hfree
  exact (hmid.trans ((hK.flatMap_right _).append_left _).symm).trans hf

/-- The descriptors in use: that of one stream apart from the other open ones. -/
theorem held_around (opens : Vector (Option Group) 8) (st : Stream) : ∃ others, ∀ x pipeline replaying n m,
    (GroupTable.held ⟨setV opens st x, pipeline, replaying, n, m⟩).Perm
      (x.toList ++ others ++ pipeline ++ replaying.toList) := by
  obtain ⟨before, behind, h⟩ := opens_around opens st
  refine ⟨before ++ behind, fun x pipeline replaying n m => ?_⟩
  simp only [GroupTable.held, h]
  refine ((List.Perm.append_right _ ?_).append_right _)
  rw [← List.append_assoc]
  exact List.perm_append_comm.append_right _

/-- The descriptors in use, when the stream's open descriptor is `x`. -/
theorem held_perm {t : GroupTable} {st : Stream} {x : Option Group} {others : List Group} (hx : getV t.opens st = x)
    (h : ∀ x pipeline replaying n m, (GroupTable.held ⟨setV t.opens st x, pipeline, replaying, n, m⟩).Perm
      (x.toList ++ others ++ pipeline ++ replaying.toList)) :
    t.held.Perm (x.toList ++ others ++ t.pipeline ++ t.replaying.toList) := by
  have := h x t.pipeline t.replaying t.nextGroup t.nextRef
  rwa [← hx, setV_getV, hx] at this

/-- A stream without an OPEN group opens one (R3). -/
theorem lawful_openGroup {s : State} {st : Stream} (hs : Lawful s) (hn : s.openGroup? st = none) : Lawful (s.openGroup st) := by
  obtain ⟨others, ho⟩ := held_around s.groups.opens st
  obtain ⟨-, -, -, happly, hreplay, hwalk⟩ := (lawful_iff s).1 hs
  refine hs.of_perm ((held_perm hn ho).map _) ((ho _ _ _ _ _).map _) ?_ ?_ happly hreplay hwalk
  · simp [newGroup, Group.key, State.openGroup]
  · intro hnodup hlt
    simp only [Option.toList_some, Option.toList_none, List.nil_append, List.cons_append, List.map_cons, List.nodup_cons,
      List.forall_mem_cons, newGroup, Group.key, State.openGroup] at hnodup hlt ⊢
    refine ⟨⟨fun hmem => ?_, hnodup⟩, by omega, fun k hk => by have := hlt k hk; omega⟩
    obtain ⟨k, hk, hk'⟩ := List.mem_map.1 hmem
    have := hlt k hk
    omega

/-- The OPEN group of a stream moves to the commit pipeline (R4). -/
theorem lawful_sealGroup {s : State} (st : Stream) (i tag : Fin 4) (hs : Lawful s) : Lawful (s.sealGroup st i tag) := by
  unfold State.sealGroup
  split
  · exact hs
  rename_i g hg
  obtain ⟨others, ho⟩ := held_around s.groups.opens st
  obtain ⟨-, -, -, happly, hreplay, hwalk⟩ := (lawful_iff s).1 hs
  have hmoves : (([] : List Group) ++ others ++ (s.groups.pipeline ++ [g]) ++ s.groups.replaying.toList).Perm
      ((some g).toList ++ others ++ s.groups.pipeline ++ s.groups.replaying.toList) := by
    simpa using List.perm_middle (a := g) (l₁ := others ++ s.groups.pipeline) (l₂ := s.groups.replaying.toList)
  refine hs.of_perm ((held_perm hg ho).map _) (((ho _ _ _ _ _).map _).trans ?_) .rfl ?_ ?_ hreplay hwalk
  · simpa [Group.key] using hmoves.map Group.key
  · exact fun h h' => ⟨h, h'⟩
  · intro a ha
    have := happly a ha
    simp only [State.updatePlace, List.map_append, List.mem_append]
    exact .inl this

end Sys2Proof.Machine
end

section
/-! SUPPORT. The laws under takes, discards and retires. -/

namespace Sys2Proof.Machine

set_option Elab.async false

/-- A visited line joins the OPEN group (R13, R14). -/
theorem lawful_takeLine {s : State} (st : Stream) (l : Line) (cells : List (Option Byte)) (hs : Lawful s) :
    Lawful (s.takeLine st l cells) := by
  unfold State.takeLine
  split
  · exact hs
  rename_i g hg
  obtain ⟨others, ho⟩ := held_around s.groups.opens st
  obtain ⟨-, -, -, happly, hreplay, hwalk⟩ := (lawful_iff s).1 hs
  split
  · refine hs.of_perm ((held_perm hg ho).map _) ((ho _ _ _ _ _).map _) ?_ (fun h h' => ⟨h, h'⟩) happly hreplay hwalk
    simp [Group.key, State.queueEntry, SlotPool.merge]
  · exact hs
  · rename_i id free _ hfree
    refine hs.of_perm ((held_perm hg ho).map _) ((ho _ _ _ _ _).map _) ?_
      (fun hn hlt => ⟨by simpa [Group.key] using hn, by simpa [Group.key, State.queueEntry] using hlt⟩) happly hreplay hwalk
    simp only [Group.key, State.queueEntry, SlotPool.put, hfree, Option.toList_some, List.cons_append, List.nil_append,
      List.map_cons, List.flatMap_cons, List.append_assoc]
    have hmiddle := List.perm_middle (a := id) (l₁ := free ++ g.entries)
      (l₂ := ((others ++ (s.groups.pipeline ++ s.groups.replaying.toList)).map Group.key).flatMap (·.2))
    simpa [Group.key] using hmiddle

theorem lawful_takeLines {s : State} (st : Stream) (r : Request) (hs : Lawful s) : Lawful (s.takeLines st r) := by
  unfold State.takeLines
  induction r.visited generalizing s with
  | nil => exact hs
  | cons l ls ih => exact ih (lawful_takeLine st l _ hs)

theorem lawful_takeWrite {s : State} (st : Stream) (p : Place) (commit : Bool) (hs : Lawful s) :
    Lawful (s.takeWrite st p commit) := by
  have hend : Lawful (s.endHold st) := hs.keep .of_keeps
  have hopen : Lawful (if ((s.endHold st).openGroup? st).isSome then s.endHold st else (s.endHold st).openGroup st) := by
    split
    · exact hend
    · rename_i h
      exact lawful_openGroup hend (by simpa using h)
  unfold State.takeWrite
  split
  · exact lawful_sealGroup _ _ _ (lawful_takeLines _ _ hopen)
  · exact (lawful_takeLines st p.request hopen).keep .of_keeps

/-- The OPEN group of a stream is discarded (R19). -/
theorem lawful_discardGroup {s : State} {st : Stream} {g : Group} (reason : DiscardReason) (hs : Lawful s)
    (hg : s.openGroup? st = some g) : Lawful (s.discardGroup st g reason) := by
  obtain ⟨others, ho⟩ := held_around s.groups.opens st
  obtain ⟨-, -, -, happly, hreplay, hwalk⟩ := (lawful_iff s).1 hs
  refine hs.of_perm ((held_perm hg ho).map _) ((ho none _ _ _ _).map _) ?_ ?_ happly hreplay hwalk
  · simp [State.discardGroup, State.pushEvent, State.recomputeLiveTail, SlotPool.release, Group.key]
  · intro hnodup hlt
    simp only [Option.toList_some, List.cons_append, List.nil_append, List.map_cons, List.nodup_cons,
      List.forall_mem_cons, Option.toList_none] at hnodup hlt ⊢
    exact ⟨hnodup.2, hlt.2⟩

theorem sameHoldings_owe (s : State) (f : Stream → HeldWrite → Bool) : SameHoldings s (s.owe f) := .of_keeps

theorem sameHoldings_afterDiscard (s : State) (ls : List Line) : SameHoldings s (s.afterDiscard ls) := .of_keeps

theorem lawful_discardOpenGroup {s : State} (st : Stream) (reason : DiscardReason) (hs : Lawful s) :
    Lawful (s.discardOpenGroup st reason) := by
  unfold State.discardOpenGroup
  split
  · exact hs
  · rename_i g hg
    exact (sameHoldings_afterDiscard _ _).lawful (lawful_discardGroup reason hs hg)

/-- With distinct values of `f`, the elements that share that of `a` are `a` alone. -/
theorem filter_eq_singleton {α β : Type} [DecidableEq β] {f : α → β} {l : List α} {a : α} (hn : (l.map f).Nodup) (ha : a ∈ l) :
    l.filter (fun x => f x = f a) = [a] := by
  induction l with
  | nil => cases ha
  | cons b l ih =>
    obtain ⟨hb, hl⟩ := List.nodup_cons.1 hn
    rcases List.mem_cons.1 ha with rfl | ha
    · simp only [decide_true, List.filter_cons_of_pos, List.cons.injEq, true_and, List.filter_eq_nil_iff, decide_eq_true_eq]
      exact fun x hx hxa => hb (hxa ▸ List.mem_map_of_mem hx)
    · have hba : f b ≠ f a := fun h => hb (h ▸ List.mem_map_of_mem ha)
      rw [List.filter_cons_of_neg (by simpa using hba), ih hl ha]

/-- A group of the pipeline retires (R125). -/
theorem lawful_retire {s : State} {g : Group} (hs : Lawful s) (hg : g ∈ s.groups.pipeline) : Lawful (s.retire g) := by
  obtain ⟨-, hnodup, -, -, hreplay, hwalk⟩ := (lawful_iff s).1 hs
  let left := s.groups.pipeline.filter fun x => x.ref ≠ g.ref
  let opens := s.groups.opens.toList.filterMap id
  have hpipe : s.groups.pipeline.Perm (g :: left) := by
    have hpipeline : (s.groups.pipeline.map (·.ref)).Nodup := by
      simp only [GroupTable.held, List.map_append, List.map_map, List.append_assoc] at hnodup
      exact hnodup.of_append_right.of_append_left
    have := List.filter_append_perm (fun x : Group => decide (x.ref = g.ref)) s.groups.pipeline
    rw [filter_eq_singleton hpipeline hg] at this
    simpa [left] using this.symm
  have hheld : s.groups.held.Perm (g :: (opens ++ left ++ s.groups.replaying.toList)) :=
    ((hpipe.append_left opens).trans List.perm_middle).append_right _
  have hretired : (s.retire g).groups.held = opens ++ left ++ s.groups.replaying.toList := by
    simp [State.retire, State.recomputeLiveTail, GroupTable.held, opens, left]
  refine hs.of_perm (hheld.map _) (.of_eq (congrArg _ hretired)) ?_ ?_ ?_ ?_ ?_
  · simp [State.retire, State.recomputeLiveTail, SlotPool.release, Group.key]
  · intro hn hlt
    simp only [List.map_cons, List.nodup_cons, List.forall_mem_cons] at hn hlt
    exact ⟨hn.2, fun k hk => by simpa [State.retire, State.recomputeLiveTail] using hlt.2 k hk⟩
  · simp [State.retire, State.recomputeLiveTail]
  · simpa [State.retire, State.recomputeLiveTail] using hreplay
  · simpa [State.retire, State.recomputeLiveTail] using hwalk

end Sys2Proof.Machine
end

section
/-! SUPPORT. The laws under the frame of an event, clearings, CLEAR_FAULT and replay. -/

namespace Sys2Proof.Machine

set_option Elab.async false

/-! ### The frame of an event -/

/-- As `SameHoldings.of_keeps`, for an operation that may also drop the apply record or change its progress. -/
theorem SameHoldings.of_apply {s t : State} (ha : ∀ a, t.apply = some a → ∃ b, s.apply = some b ∧ b.group = a.group)
    (hg : t.groups = s.groups := by simp) (hp : t.pool.free = s.pool.free := by simp)
    (hr : t.service.replay = s.service.replay := by simp)
    (hm : t.mem.outstanding = s.mem.outstanding := by simp) : SameHoldings s t :=
  { SameHoldings.of_keeps (s := s) (t := { t with apply := s.apply }) hg hp rfl hr hm with apply := ha }

theorem sameHoldings_dropFront (s : State) : SameHoldings s s.dropFront :=
  { SameHoldings.of_keeps (s := s) (t := { s.dropFront with mem := s.mem }) with
    walk := fun _ he _ _ => List.mem_of_mem_tail he }

theorem sameHoldings_ignore (s : State) (f : Purpose → Bool) : SameHoldings s (s.ignore f) where
  opens _ := rfl
  pipeline := rfl
  replaying := rfl
  nextRef := rfl
  free := rfl
  apply a h := ⟨a, h, rfl⟩
  replay := rfl
  walk e he _ hl := by
    obtain ⟨e', he', rfl⟩ := List.mem_map.1 he
    simp only [Bool.and_eq_true] at hl
    obtain ⟨hl', hf⟩ := hl
    have : ({ e' with live := e'.live && !f e'.purpose } : MemEntry) = e' := by cases e'; simp_all
    exact this.symm ▸ he'

/-- A request other than a read of the walk joins the outstanding list. -/
theorem sameHoldings_issue (s : State) {p : Purpose} (r : MemRequest) (hp : p.isWalkRead = false) :
    SameHoldings s (s.issue p r) where
  opens _ := rfl
  pipeline := rfl
  replaying := rfl
  nextRef := rfl
  free := rfl
  apply a h := ⟨a, h, rfl⟩
  replay := rfl
  walk e he hw _ := by
    simp only [State.issue, List.mem_append, List.mem_singleton] at he
    rcases he with he | rfl
    · exact he
    · simp [hp] at hw

theorem sameHoldings_retractAll (s : State) : SameHoldings s s.retractAll where
  opens _ := rfl
  pipeline := by simp only [State.retractAll, List.map_map]; rfl
  replaying := rfl
  nextRef := rfl
  free := rfl
  apply a h := ⟨a, h, rfl⟩
  replay := rfl
  walk _ he _ _ := he

/-! ### Clearings -/

theorem held_cleared (n : Word) : (GroupTable.cleared n).held = [] := rfl

/-- With every descriptor and every slot free, no apply and no replay, the laws hold. -/
theorem lawful_of_cleared {s : State} {n : Word} (hg : s.groups = GroupTable.cleared n) (hp : s.pool = SlotPool.cleared)
    (ha : s.apply = none) (hr : s.service.replay = none) : Lawful s := by
  rw [lawful_iff, hg, hp, ha, hr, held_cleared]
  simp [SlotPool.cleared, GroupTable.cleared]

theorem lawful_coldReset (abase : BitVec 4) : Lawful (State.coldReset abase) := lawful_of_cleared rfl rfl rfl rfl

theorem lawful_clearBlocks (s : State) : Lawful s.clearBlocks := lawful_of_cleared rfl rfl rfl rfl

theorem lawful_restartClearing (s : State) : Lawful s.restartClearing := lawful_of_cleared rfl rfl rfl rfl

theorem lawful_formatClearing (s : State) (w : FormatWork) : Lawful (s.formatClearing w) := by
  simp only [State.formatClearing]
  split
  · exact (lawful_clearBlocks s).keep .of_keeps
  · exact (lawful_clearBlocks s).keep (.of_keeps (hr := rfl))

theorem lawful_drainCheck {s : State} (hs : Lawful s) : Lawful s.drainCheck := by
  unfold State.drainCheck
  split
  · split
    · exact lawful_formatClearing _ _
    · exact lawful_restartClearing _
  · exact hs

theorem lawful_beginDrain {s : State} (hs : Lawful s) : Lawful s.beginDrain :=
  lawful_drainCheck (hs.keep .of_keeps)

/-! ### CLEAR_FAULT -/

/-- A new attempt is for the group of the one before. -/
theorem sameHoldings_startAttempt {s : State} {a : ApplyRecord} (ha : s.apply = some a) : SameHoldings s (s.startAttempt a) :=
  .of_apply fun _ hb => ⟨a, ha, by simp only [State.startAttempt, Option.some.injEq] at hb; subst hb; rfl⟩

theorem finishClear_replay (s : State) (answered : Option CheckpointRequest) :
    (s.finishClear answered).service.replay = s.service.replay := by
  have hdone (u : State) : u.recoveryDone.service.replay = u.service.replay := rfl
  simp only [State.finishClear]
  split <;> split <;> split <;> simp [hdone]

theorem anchorStep_replay (s : State) : s.anchorStep.service.replay = s.service.replay := by
  unfold State.anchorStep
  split
  · rfl
  · simp [finishClear_replay]

theorem sameHoldings_anchorStep (s : State) : SameHoldings s s.anchorStep := .of_keeps (hr := anchorStep_replay s)

theorem sameHoldings_dropCause (s : State) (c : FaultCause) : SameHoldings s (s.dropCause c) := .of_keeps

theorem sameHoldings_applyStep (s : State) : SameHoldings s s.applyStep := by
  unfold State.applyStep
  split
  · split
    · exact (sameHoldings_dropCause _ _).trans (sameHoldings_anchorStep _)
    · rename_i a ha
      split
      · exact sameHoldings_startAttempt ha
      · exact .of_keeps
  · exact sameHoldings_anchorStep s

theorem sameHoldings_journalStep (s : State) : SameHoldings s s.journalStep := by
  unfold State.journalStep
  split
  · split
    · exact (sameHoldings_dropCause _ _).trans (sameHoldings_applyStep _)
    · exact .of_keeps
  · exact sameHoldings_applyStep s

theorem sameHoldings_continueClear (s : State) : SameHoldings s s.continueClear := by
  unfold State.continueClear
  split
  · exact .of_keeps
  · split
    · exact (sameHoldings_dropCause _ _).trans (sameHoldings_applyStep _)
    · exact .of_keeps
  · split
    · exact (sameHoldings_dropCause _ _).trans (sameHoldings_anchorStep _)
    · rename_i a ha
      split
      · exact sameHoldings_startAttempt ha
      · exact .of_keeps
  · exact .of_keeps

/-! ### Replay (R23, R153 to R155) -/

theorem sameHoldings_walkOn (s : State) : SameHoldings s s.walkOn := by
  unfold State.walkOn
  split
  · exact .of_keeps
  · split
    · refine ⟨fun _ => ?_, ?_, ?_, ?_, ?_, fun a h => ⟨a, ?_, rfl⟩, ?_, fun e he _ _ => ?_⟩ <;>
        simp_all [State.closeRecovery, State.withRecovery]
    · exact .of_keeps

theorem sameHoldings_recoveryFault (s : State) (c : FaultCause) : SameHoldings s (s.recoveryFault c) :=
  (sameHoldings_ignore s Purpose.isRecovery).trans (.of_keeps (hm := by simp [State.recoveryFault]))

/-- The descriptors in use, a replay's last. -/
theorem held_replaying (t : GroupTable) (r : Option Group) :
    ({ t with replaying := r } : GroupTable).held = t.opens.toList.filterMap id ++ t.pipeline ++ r.toList := rfl

/-- A replayed group leaves its slots and its descriptor (R155). -/
theorem lawful_replayed {s : State} {g : Group} (hs : Lawful s) (hg : s.groups.replaying = some g) : Lawful (s.replayed g) := by
  obtain ⟨-, -, -, happly, -, -⟩ := (lawful_iff s).1 hs
  refine Lawful.keep ?_ (sameHoldings_walkOn _)
  refine hs.of_perm (K := s.groups.held.map Group.key) (K' := _) .rfl (.of_eq (congrArg _ (held_replaying s.groups none))) ?_ ?_ happly rfl
    (by simp [State.withRecovery])
  · simp only [GroupTable.held, hg, State.withRecovery, SlotPool.release, List.map_append, List.flatMap_append,
      Option.toList_some, Option.toList_none, List.map_nil, List.flatMap_nil, List.append_nil, List.map_cons,
      List.flatMap_cons, List.append_assoc]
    refine List.Perm.append_left _ ?_
    rw [← List.append_assoc (List.flatMap _ _)]
    exact List.perm_append_comm
  · intro hn hlt
    simp only [GroupTable.held, hg, List.map_append, List.forall_mem_append, List.append_assoc] at hn hlt ⊢
    simp only [← List.append_assoc] at hn
    exact ⟨by simpa using hn.of_append_left, hlt.1, hlt.2.1, by simp⟩

theorem lawful_countCheck {s : State} {p : Replay} (hs : Lawful s) (hr : s.service.replay.isSome) : Lawful (s.countCheck p) := by
  have hwriting : Lawful { s with service := { s.service with replay := some { p with writing := true } } } :=
    hs.keep ⟨fun _ => rfl, rfl, rfl, rfl, rfl, fun a h => ⟨a, h, rfl⟩, by simp [hr], fun _ he _ _ => he⟩
  unfold State.countCheck
  split
  · exact hs
  · rename_i g hg
    split
    · split
      · exact lawful_replayed hwriting hg
      · exact hwriting
    · exact hs.keep (sameHoldings_recoveryFault _ _)

/-- The collection goes on: what the laws need of the state once the replay record is there. -/
theorem lawful_collectOn {s : State} {p : Replay} (hs : Lawful { s with service := { s.service with replay := some p } }) :
    Lawful (s.collectOn p) := by
  unfold State.collectOn
  split
  · exact lawful_countCheck hs rfl
  · exact hs

/-- With no replay in progress one begins, and the reads of the walk are ignored (R153). -/
theorem lawful_beginReplay {s : State} (seq : Word) (stream : Byte) (number commit entries slots : Word) (hs : Lawful s)
    (hn : s.groups.replaying = none) : Lawful (s.beginReplay seq stream number commit entries slots) := by
  obtain ⟨-, -, -, happly, -, -⟩ := (lawful_iff s).1 hs
  refine lawful_collectOn (hs.of_perm (K := s.groups.held.map Group.key) (K' := _) .rfl
    (.of_eq (congrArg _ (held_replaying s.groups _))) ?_ ?_ happly rfl ?_)
  · simp [GroupTable.held, hn, replayGroup, Group.key, State.ignore]
  · intro hnodup hlt
    simp only [GroupTable.held, hn, Option.toList_none, List.append_nil] at hnodup hlt
    simp only [List.map_append, Option.toList_some, List.map_cons, List.map_nil, replayGroup, Group.key] at hnodup hlt ⊢
    refine ⟨?_, ?_⟩
    · rw [List.nodup_append]
      refine ⟨by simpa using hnodup, by simp, fun n hmem m hm hnm => ?_⟩
      simp only [List.mem_singleton] at hm
      obtain ⟨k, hk, rfl⟩ := List.mem_map.1 (List.map_append ▸ hmem)
      have := hlt k hk
      simp only [State.ignore] at hm
      omega
    · intro k hk
      rcases List.mem_append.1 hk with hk | hk
      · have := hlt k hk
        simp only [State.ignore]
        omega
      · simp only [List.mem_singleton] at hk
        subst hk
        simp [State.ignore]
  · intro _ e he hw
    simp only [State.ignore, List.mem_map] at he
    obtain ⟨e', -, rfl⟩ := he
    simp_all

end Sys2Proof.Machine
end

section
/-! SUPPORT. The laws under the records of recovery and the grants. -/

namespace Sys2Proof.Machine

set_option Elab.async false

theorem sameHoldings_withRecovery (s : State) (f : Recovery → Recovery) : SameHoldings s (s.withRecovery f) :=
  .of_keeps (hr := rfl)

/-- A record of the walk, while no replay is in progress. -/
theorem lawful_walkDone {s : State} (seq : Word) (c : Completion) (hs : Lawful s) (hn : s.groups.replaying = none) :
    Lawful (s.walkDone seq c) := by
  have hnext := hs.keep (sameHoldings_withRecovery s fun r => { r with cursor := seq + 1 })
  unfold State.walkDone
  split
  · exact hs.keep (sameHoldings_recoveryFault _ _)
  · split
    · dsimp only
      split
      · exact lawful_beginReplay _ _ _ _ _ _ hnext hn
      · exact hnext.keep (sameHoldings_walkOn _)
    · exact hnext.keep (sameHoldings_walkOn _)
    · exact hnext.keep (sameHoldings_walkOn _)

/-- The laws of a collection do not depend on the replay's progress. -/
theorem lawful_replayProgress {s : State} (p : Replay) (hs : Lawful s) (hr : s.service.replay.isSome) :
    Lawful { s with service := { s.service with replay := some p } } :=
  hs.keep ⟨fun _ => rfl, rfl, rfl, rfl, rfl, fun a h => ⟨a, h, rfl⟩, by simp [hr], fun _ he _ _ => he⟩

/-- A collected ENTRY takes at most one slot, from the head of the free list (R154). -/
theorem lawful_collectEntry {s t : State} {g : Group} {slots : Word} {l : Line} {cells : List (Option Byte)} (hs : Lawful s)
    (hg : s.groups.replaying = some g) (ht : s.collectEntry g slots l cells = some t) : Lawful t := by
  obtain ⟨-, -, -, happly, hreplay, hwalk⟩ := (lawful_iff s).1 hs
  unfold State.collectEntry at ht
  dsimp only at ht
  split at ht
  · obtain rfl := Option.some.inj ht
    exact hs.keep (.of_keeps (hp := rfl))
  · split at ht
    · cases ht
    · rename_i id free hfree
      split at ht
      · cases ht
      · obtain rfl := Option.some.inj ht
        refine hs.of_perm (K := s.groups.held.map Group.key) (K' := _) .rfl
          (.of_eq (congrArg _ (held_replaying s.groups _))) ?_ ?_ happly (by simpa [hg] using hreplay) (by simpa [hg] using hwalk)
        · simp only [GroupTable.held, hg, SlotPool.put, hfree, List.map_append, List.flatMap_append, Option.toList_some,
            List.map_cons, List.map_nil, List.flatMap_cons, List.flatMap_nil, Group.key, List.append_nil, List.cons_append]
          simp only [← List.append_assoc]
          exact (List.perm_append_singleton _ _)
        · intro hn hlt
          refine ⟨by simpa [GroupTable.held, hg, Group.key] using hn, fun k hk => ?_⟩
          simp only [GroupTable.held, hg, List.map_append, List.forall_mem_append, Option.toList_some, List.map_cons,
            List.map_nil, List.forall_mem_singleton] at hlt
          simp only [List.map_append, List.mem_append, Option.toList_some, List.map_cons, List.map_nil,
            List.mem_singleton] at hk
          rcases hk with (hk | hk) | rfl
          · exact hlt.1.1 k hk
          · exact hlt.1.2 k hk
          · exact hlt.2

theorem lawful_collectDone {s : State} (seq : Word) (c : Completion) (hs : Lawful s) : Lawful (s.collectDone seq c) := by
  unfold State.collectDone
  split
  · rename_i p g x hp hg hx
    have hon (q : Replay) : Lawful (s.collectOn q) := lawful_collectOn (lawful_replayProgress q hs (by simp [hp]))
    dsimp only
    split
    · split
      · split
        · rename_i t ht
          refine lawful_collectOn (lawful_replayProgress _ (lawful_collectEntry hs hg ht) ?_)
          rw [State.collectEntry_keeps ht]
          simp [hp]
        · exact hs.keep (sameHoldings_recoveryFault _ _)
      · exact hon _
    · exact hon _
    · exact hon _
  · exact hs.keep (sameHoldings_recoveryFault _ _)
  · exact hs

theorem lawful_replayWriteOk {s : State} (hs : Lawful s) : Lawful s.replayWriteOk := by
  unfold State.replayWriteOk
  split
  · rename_i p g hp hg
    have hnext (q : Replay) := lawful_replayProgress q hs (by simp [hp])
    dsimp only
    split
    · exact lawful_replayed (hnext _) hg
    · exact hnext _
  · exact hs

/-! ### Grants -/

theorem lawful_issueRecord {s : State} (hs : Lawful s) : Lawful s.issueRecord := by
  unfold State.issueRecord
  split
  · exact hs
  · rename_i q rest hq
    have hissued (u : State) (r : MemRequest) (j : JournalWriter) (hu : Lawful u) :
        Lawful ({ u.issue .record r with journal := j } : State).oweSpace.distanceTrigger :=
      (hu.keep (sameHoldings_issue u r (p := .record) rfl)).keep .of_keeps
    exact hissued _ _ _ (hs.keep (sameHoldings_updateGroup s q.group fun _ => rfl))

theorem lawful_issueRewrite {s : State} (hs : Lawful s) : Lawful s.issueRewrite := by
  unfold State.issueRewrite
  split
  · exact hs
  · rename_i r _ _
    exact (hs.keep (sameHoldings_issue s (p := .rewrite) (s.recordWrite r.kind (s.groupOf r.group) r.seq) rfl)).keep .of_keeps

theorem lawful_issueHomeWrite {s : State} (hs : Lawful s) : Lawful s.issueHomeWrite := by
  unfold State.issueHomeWrite
  split
  · exact hs
  · rename_i a ha
    split
    · exact hs
    · rename_i id _
      refine (hs.keep (sameHoldings_issue s (p := .homeWrite) (s.homeWriteOf id) rfl)).keep (.of_apply fun b hb => ⟨a, ha, ?_⟩)
      obtain rfl := Option.some.inj hb
      rfl

theorem lawful_issuePath {s : State} (hs : Lawful s) : Lawful s.issuePath := by
  unfold State.issuePath
  split
  · exact hs
  · rename_i p rest hp
    have htake : Lawful { s with mem := { s.mem with path := rest } } := hs.keep .of_keeps
    dsimp only
    split
    · exact (htake.keep (sameHoldings_issue _ (p := .homeRead p.stream p.place) p.request rfl)).keep .of_keeps
    · exact htake.keep (sameHoldings_issue _ (p := .passThrough p.stream p.place) p.request rfl)

theorem lawful_issueTurn {s : State} (turn : CheckpointTurn) (hs : Lawful s) : Lawful (s.issueTurn turn) := by
  have half (second : Bool) : Lawful (s.issueRewriteHalf second) := by
    unfold State.issueRewriteHalf
    split
    · exact hs
    · rename_i r _
      exact (hs.keep (sameHoldings_issue s (p := .anchorHalf second true) (s.anchorWrite r.copy r.anchor second) rfl)).keep .of_keeps
  cases turn with
  | first =>
    exact (hs.keep (sameHoldings_issue s (p := .anchorHalf false false)
      (s.anchorWrite (otherCopy s.ckpt.lastCopy) s.formAnchor false) rfl)).keep (.of_keeps (hm := rfl))
  | second =>
    unfold State.issueTurn State.issueSecondHalf
    dsimp only
    split
    · exact hs
    · rename_i f _
      exact (hs.keep (sameHoldings_issue s (p := .anchorHalf true false) (s.anchorWrite f.copy f.anchor true) rfl)).keep .of_keeps
  | rewriteFirst => exact half false
  | rewriteSecond => exact half true

theorem eq_of_guarded {α : Type} {c : Prop} [Decidable c] {x y : α} (h : (if c then some y else none) = some x) : x = y := by
  split at h
  · exact (Option.some.inj h).symm
  · cases h

/-- A replay presents no read of the walk (R154, R155). -/
theorem replayRequest_other {s : State} {p : Replay} {x : Purpose × MemRequest} (hx : s.replayRequest p = some x) :
    x.1.isWalkRead = false := by
  unfold State.replayRequest at hx
  dsimp only at hx
  split at hx
  · split at hx
    · cases hx
    · rw [eq_of_guarded hx]; rfl
  · rw [eq_of_guarded hx]; rfl

/-- Recovery presents a read of the walk only while no replay is in progress (R153). -/
theorem recoveryRequest_walk {s : State} {x : Purpose × MemRequest} (hx : s.recoveryRequest = some x)
    (hw : x.1.isWalkRead = true) : s.service.replay = none := by
  unfold State.recoveryRequest at hx
  split at hx
  · split at hx
    · rw [eq_of_guarded hx] at hw; cases hw
    · rw [eq_of_guarded hx] at hw; cases hw
    · split at hx
      · assumption
      · rw [replayRequest_other hx] at hw; cases hw
    · cases hx
    · cases hx
  · cases hx

theorem formatRequest_other {s : State} {x : Purpose × MemRequest} (hx : s.formatRequest = some x) :
    x.1.isWalkRead = false := by
  unfold State.formatRequest at hx
  split at hx
  · cases hx
  · rw [eq_of_guarded hx]; rfl

theorem digestRequest_other {s : State} {x : Purpose × MemRequest} (hx : s.digestRequest = some x) :
    x.1.isWalkRead = false := by
  unfold State.digestRequest at hx
  split at hx
  · cases hx
  · rw [eq_of_guarded hx]; rfl

/-- A request of recovery joins the outstanding list. -/
theorem lawful_issue_recovery {s u : State} {x : Purpose × MemRequest} (hs : Lawful s) (hu : SameHoldings s u)
    (hx : s.recoveryRequest = some x) : Lawful (u.issue x.1 x.2) := by
  cases hw : x.1.isWalkRead with
  | false => exact (hs.keep hu).keep (sameHoldings_issue u x.2 hw)
  | true =>
    have hnone : u.groups.replaying.isSome = false := by
      have hreplay := hu.replay
      rw [recoveryRequest_walk hx hw] at hreplay
      obtain ⟨-, -, -, -, hsame, -⟩ := (lawful_iff u).1 (hs.keep hu)
      rw [hsame, hreplay]; rfl
    obtain ⟨hfree, hnodup, hlt, happly, hreplay, -⟩ := (lawful_iff u).1 (hs.keep hu)
    exact (lawful_iff _).2 ⟨hfree, hnodup, hlt, happly, hreplay, by simp [hnone]⟩

theorem lawful_issueWork {s : State} (w : ServiceWork) (hs : Lawful s) : Lawful (s.issueWork w) := by
  have horder : SameHoldings s { s with service := { s.service with readyOrder := s.service.readyOrder.erase w } } :=
    .of_keeps (hr := rfl)
  unfold State.issueWork
  cases w with
  | checkpoint =>
    cases hx : s.checkpointTurn with
    | none => exact hs
    | some turn => exact lawful_issueTurn turn (hs.keep horder)
  | recovery =>
    cases hx : s.recoveryRequest with
    | none => exact hs
    | some x =>
      have hissue := lawful_issue_recovery hs horder hx
      dsimp only [Option.elim]
      unfold State.issueRecovery
      dsimp only
      split
      · exact hissue.keep ⟨fun _ => rfl, rfl, rfl, rfl, rfl, fun a h => ⟨a, h, rfl⟩, by simp, fun _ he _ _ => he⟩
      · exact hissue
  | format =>
    cases hx : s.formatRequest with
    | none => exact hs
    | some x =>
      exact ((hs.keep horder).keep (sameHoldings_issue _ x.2 (formatRequest_other hx))).keep (.of_keeps (hr := rfl) (hm := rfl))
  | digest =>
    cases hx : s.digestRequest with
    | none => exact hs
    | some x =>
      exact ((hs.keep horder).keep (sameHoldings_issue _ x.2 (digestRequest_other hx))).keep (.of_keeps (hr := rfl) (hm := rfl))

theorem lawful_grant {s : State} (hs : Lawful s) : Lawful s.grant := by
  unfold State.grant
  split
  · exact hs
  · rename_i r byRotation _
    have hmove : Lawful (s.movePointer r byRotation) := hs.keep (.of_keeps (hm := by unfold State.movePointer; split <;> rfl))
    unfold State.grantTo
    cases r with
    | journalWriter =>
      dsimp only
      split
      · exact lawful_issueRecord hmove
      · exact lawful_issueRewrite hmove
    | applyEngine => exact lawful_issueHomeWrite hmove
    | requestPath => exact lawful_issuePath hmove
    | serviceEngine =>
      dsimp only
      cases (s.movePointer .serviceEngine byRotation).presentedWork with
      | none => exact hmove
      | some w => exact lawful_issueWork w hmove

end Sys2Proof.Machine
end

section
/-! SUPPORT. The laws under completions and commands. -/

namespace Sys2Proof.Machine

set_option Elab.async false

/-! ### Completions -/

theorem lawful_sealedEvent {s : State} (ref : Nat) (hs : Lawful s) : Lawful (s.sealedEvent ref) := by
  unfold State.sealedEvent
  split
  · exact hs
  · have hgroup := hs.keep (sameHoldings_updateGroup s ref (f := fun g => { g with state := .sealed, commitResponse := none })
      fun _ => rfl)
    exact hgroup.keep .of_keeps

theorem lawful_recordDurable {s : State} (r : IssuedRecord) (hs : Lawful s) : Lawful (s.recordDurable r) := by
  have hcount : Lawful { s with mgmt := { s.mgmt with records := s.mgmt.records + 1 } } := hs.keep .of_keeps
  unfold State.recordDurable
  dsimp only
  split
  · exact lawful_sealedEvent _ hcount
  · exact hcount

theorem lawful_recordOk {s : State} (hs : Lawful s) : Lawful s.recordOk := by
  unfold State.recordOk
  split
  · exact hs
  · rename_i r rest _
    have hleft : Lawful { s with journal := { s.journal with outstanding := rest } } := hs.keep .of_keeps
    exact ((lawful_recordDurable r hleft).keep .of_keeps).keep (sameHoldings_continueClear _)

theorem lawful_recordFailed {s : State} (hs : Lawful s) : Lawful s.recordFailed := by
  unfold State.recordFailed
  split
  · exact hs
  · rename_i r rest _
    dsimp only
    split
    · have hleft : Lawful { s with journal := { s.journal with
        outstanding := rest, failed := s.journal.failed ++ [{ r with kind := s.failedKind r }] } } := hs.keep .of_keeps
      have hdoubt := hleft.keep (sameHoldings_updateGroup _ r.group (f := fun g => { g with state := .inDoubt }) fun _ => rfl)
      exact hdoubt.keep .of_keeps
    · exact hs.keep .of_keeps

theorem lawful_rewriteDone {s : State} (st : MemStatus) (hs : Lawful s) : Lawful (s.rewriteDone st) := by
  unfold State.rewriteDone
  split
  · exact hs
  · rename_i r rest _
    have hleft : Lawful { s with journal := { s.journal with failed := rest } } := hs.keep .of_keeps
    dsimp only
    split
    · exact (lawful_recordDurable r (hleft.keep .of_keeps)).keep (sameHoldings_continueClear _)
    · exact (lawful_recordDurable r hleft).keep (sameHoldings_continueClear _)
  · split
    · exact hs.keep .of_keeps
    · exact hs

/-- The Apply Engine takes the group at the head of the pipeline (R121). -/
theorem lawful_startApply {s : State} (hs : Lawful s) : Lawful s.startApply := by
  unfold State.startApply
  split
  · exact hs
  · rename_i g rest hg
    have hgroup := hs.keep (sameHoldings_updateGroup s g.ref (f := fun g => { g with state := .applying }) fun _ => rfl)
    obtain ⟨hfree, hnodup, hlt, -, hreplay, hwalk⟩ := (lawful_iff _).1 hgroup
    refine (lawful_iff _).2 ⟨hfree, hnodup, hlt, fun a ha => ?_, hreplay, hwalk⟩
    obtain rfl := Option.some.inj ha
    simp [State.updateGroup, GroupTable.update, hg, Group.key]

/-- The group that the Apply Engine's record names is in the pipeline, and it is the one that is found (R122). -/
theorem findGroup_apply {s : State} {a : ApplyRecord} {g : Group} (hs : Lawful s) (ha : s.apply = some a)
    (hg : s.findGroup a.group = some g) : g ∈ s.groups.pipeline := by
  obtain ⟨-, hnodup, -, happly, -, -⟩ := (lawful_iff s).1 hs
  obtain ⟨k, hk, hka⟩ := List.mem_map.1 (happly a ha)
  obtain ⟨x, hx, rfl⟩ := List.mem_map.1 hk
  have hmem : g ∈ s.groups.held := by
    simp only [GroupTable.held, List.mem_append]
    have := List.mem_of_find?_eq_some hg
    simp only [GroupTable.all, List.mem_append] at this
    exact .inl this
  have hxmem : x ∈ s.groups.held := by simp [GroupTable.held, hx]
  have href : g.ref = a.group := by simpa using List.find?_some hg
  have : g = x := by
    rw [List.map_map] at hnodup
    exact List.inj_on_of_nodup_map hnodup hmem hxmem (href.trans hka.symm)
  exact this ▸ hx

/-- The last acknowledged home write retires the applying group, which stands in the pipeline (R125). -/
theorem lawful_homeWriteOk {s : State} (hs : Lawful s) : Lawful s.homeWriteOk := by
  unfold State.homeWriteOk
  split
  · exact hs
  · rename_i a ha
    have hcount (b : ApplyRecord) (hb : b.group = a.group) : Lawful { s with apply := some b } :=
      hs.keep (.of_apply fun _ h => ⟨a, ha, by obtain rfl := Option.some.inj h; exact hb.symm⟩)
    refine Lawful.keep ?_ (sameHoldings_continueClear _)
    generalize hacked : (if a.stopped = true then a.acked else a.acked + 1) = acked
    split
    · rename_i hlast
      simp only [Bool.and_eq_true, Bool.not_eq_true', decide_eq_true_eq] at hlast
      obtain ⟨hstop, hlength⟩ := hlast
      obtain rfl : a.acked + 1 = acked := by simpa [hstop] using hacked
      simp only [State.applyLength] at hlength
      split at hlength
      · omega
      · rename_i g hg
        have hgroup : State.groupOf { s with apply := some { a with
            outstanding := a.outstanding - 1, acked := a.acked + 1 } } a.group = g := by
          unfold State.groupOf
          rw [hg]; rfl
        rw [hgroup]
        exact lawful_retire (hcount _ rfl) (findGroup_apply (hcount _ rfl) rfl hg)
    · exact hcount _ rfl

theorem lawful_homeWriteFailed {s : State} (hs : Lawful s) : Lawful s.homeWriteFailed := by
  unfold State.homeWriteFailed
  split
  · exact hs
  · rename_i a ha
    have hcount : Lawful { s with apply := some { a with outstanding := a.outstanding - 1, stopped := true } } :=
      hs.keep (.of_apply fun _ h => ⟨a, ha, by obtain rfl := Option.some.inj h; rfl⟩)
    refine Lawful.keep ?_ (sameHoldings_continueClear _)
    split
    · exact hcount
    · split
      · exact hcount.keep .of_keeps
      · exact hcount.keep .of_keeps

theorem answerRequest_replay (s : State) (r : CheckpointRequest) : (s.answerRequest r).service.replay = s.service.replay := by
  have hdone (u : State) : u.recoveryDone.service.replay = u.service.replay := rfl
  cases r <;> simp [State.answerRequest, hdone]

theorem lawful_answerRequest {s : State} (r : Option CheckpointRequest) (hs : Lawful s) : Lawful (r.elim s s.answerRequest) := by
  cases r with
  | none => exact hs
  | some r => exact hs.keep (.of_keeps (hr := answerRequest_replay s r))

theorem lawful_firstHalfDone {s : State} (rewrite : Bool) (st : MemStatus) (hs : Lawful s) :
    Lawful (s.firstHalfDone rewrite st) := hs.keep .of_keeps

theorem lawful_checkpointOk {s : State} (hs : Lawful s) : Lawful s.checkpointOk := by
  unfold State.checkpointOk
  split
  · exact hs
  · rename_i f _
    have hlanded : Lawful { (s.landed f.copy f.anchor) with ckpt := { (s.landed f.copy f.anchor).ckpt with inFlight := none } } :=
      hs.keep .of_keeps
    exact (lawful_answerRequest f.answers hlanded).keep .of_keeps

theorem lawful_rewriteOk {s : State} (hs : Lawful s) : Lawful s.rewriteOk := by
  unfold State.rewriteOk
  split
  · exact hs
  · rename_i r _
    have hlanded : Lawful { (s.landed r.copy r.anchor) with
        ckpt := { (s.landed r.copy r.anchor).ckpt with retained := none, rewrite := none } } := hs.keep .of_keeps
    dsimp only
    split
    · exact hlanded.keep (.of_keeps (hr := by simp [finishClear_replay]))
    · exact (lawful_answerRequest r.answers hlanded).keep .of_keeps

theorem lawful_checkpointFailed {s : State} (hs : Lawful s) : Lawful s.checkpointFailed := hs.keep .of_keeps

theorem lawful_rewriteFailed {s : State} (hs : Lawful s) : Lawful s.rewriteFailed := hs.keep .of_keeps

/-! ### Recovery -/

theorem lawful_anchorReadDone {s : State} (c : Completion) (hs : Lawful s) : Lawful (s.anchorReadDone c) := by
  unfold State.anchorReadDone
  split
  · refine Lawful.keep ?_ (sameHoldings_recoveryFault _ _)
    exact hs.keep (.of_keeps (hr := rfl))
  · rename_i data
    have hread := hs.keep (sameHoldings_withRecovery s fun r => { r with anchorReads := r.anchorReads ++ [.ok data] })
    unfold State.chooseAnchors
    split
    · split
      · refine hread.keep (.of_keeps (hr := ?_))
        simp [State.noAnchor, State.withRecovery]
      · exact hread.keep ⟨fun _ => rfl, rfl, rfl, rfl, rfl, fun a h => ⟨a, h, rfl⟩, rfl, fun _ he _ _ => he⟩
    · exact hread

theorem lawful_fixHead {s : State} (h : Word) (hs : Lawful s) : Lawful (s.fixHead h) :=
  ((hs.keep (sameHoldings_ignore s Purpose.isScanRead)).keep (sameHoldings_withRecovery _ _)).keep (sameHoldings_walkOn _)

theorem lawful_scanDone {s : State} (seq : Word) (c : Completion) (hs : Lawful s) : Lawful (s.scanDone seq c) := by
  unfold State.scanDone
  split
  · rename_i x _
    have hnext := hs.keep (sameHoldings_withRecovery s fun r => ({ r with cursor := seq + 1 } : Recovery).see x)
    dsimp only
    split
    · exact lawful_fixHead _ hnext
    · exact hnext
  · split
    · exact hs.keep (sameHoldings_recoveryFault _ _)
    · exact lawful_fixHead _ hs

/-! ### Commands -/

theorem sameHoldings_answerAtOnce (s : State) (code : Byte) (r : Result) (item : Byte) (test : BitVec 4) :
    SameHoldings s (s.answerAtOnce code r item test) := .of_keeps

theorem sameHoldings_endIf (s : State) (c : Command) (r : Result) : SameHoldings s (s.endIf c r) := .of_keeps

theorem lawful_offer {s : State} {f : State → State} (hf : ∀ u, Lawful u → Lawful (f u)) (hs : Lawful s) : Lawful (s.offer f) := by
  unfold State.offer
  split
  · exact hs.keep .of_keeps
  · exact hf s hs

/-- One stream of DISCARD_OPEN (R168). -/
theorem lawful_discardStream {x : State × List Line} (st : Stream) (hs : Lawful x.1) :
    Lawful (State.discardStream x st).1 := by
  unfold State.discardStream
  split
  · exact hs
  · rename_i g hg
    exact (lawful_discardGroup .management hs hg).keep .of_keeps

theorem lawful_discardStreams (sts : List Stream) {x : State × List Line} (hs : Lawful x.1) :
    Lawful (sts.foldl State.discardStream x).1 := by
  induction sts generalizing x with
  | nil => exact hs
  | cons st sts ih => exact ih (lawful_discardStream st hs)

theorem lawful_discardOpen {s : State} (hs : Lawful s) : Lawful s.discardOpen := by
  unfold State.discardOpen
  split
  · dsimp only
    split
    · exact hs.keep .of_keeps
    · exact ((lawful_discardStreams allStreams (x := (s, [])) hs).keep (sameHoldings_afterDiscard _ _)).keep
        (sameHoldings_answerAtOnce _ _ _ _ _)
  · exact hs.keep .of_keeps

theorem lawful_clearFault {s : State} (hs : Lawful s) : Lawful s.clearFault := by
  unfold State.clearFault
  split
  · exact (hs.keep .of_keeps : Lawful (s.takeRunning .clearFault)).keep (sameHoldings_journalStep _)
  · exact hs.keep .of_keeps

theorem lawful_closeDigest {s : State} (d : DigestRecord) (hs : Lawful s) : Lawful (s.closeDigest d) := by
  have hclosed : Lawful { s with
      service := { s.service with digest := none }
      mgmt := { s.mgmt with digestResult := ~~~d.crc, coveredBytes := d.processed } } := hs.keep (.of_keeps (hr := rfl))
  exact hclosed.keep (sameHoldings_ignore _ _)

theorem lawful_digest {s : State} (hs : Lawful s) : Lawful s.digest := by
  unfold State.digest
  dsimp only
  split
  · exact hs.keep .of_keeps
  · split
    · exact hs.keep .of_keeps
    · split
      · exact hs.keep .of_keeps
      · exact hs.keep (.of_keeps (hr := rfl))

theorem lawful_abortRunningDigest {s : State} (hs : Lawful s) : Lawful s.abortRunningDigest := by
  unfold State.abortRunningDigest
  split
  · exact hs
  · exact (lawful_closeDigest _ hs).keep (sameHoldings_endIf _ _ _)

theorem lawful_abortDigest {s : State} (hs : Lawful s) : Lawful s.abortDigest := by
  unfold State.abortDigest
  split
  · exact lawful_abortRunningDigest hs
  · split
    · exact hs
    · exact hs.keep .of_keeps

theorem lawful_digestComplete {s : State} (d : DigestRecord) (hs : Lawful s) : Lawful (s.digestComplete d) :=
  (lawful_closeDigest d hs).keep (.of_keeps (hr := rfl) (hm := rfl))

theorem lawful_digestReadDone {s : State} (c : Completion) (hs : Lawful s) : Lawful (s.digestReadDone c) := by
  unfold State.digestReadDone
  split
  · exact hs
  · split
    · exact (lawful_closeDigest _ hs).keep (sameHoldings_endIf _ _ _)
    · have hfed (d : DigestRecord) : Lawful { s with service := { s.service with digest := some d } } :=
        hs.keep (.of_keeps (hr := rfl))
      dsimp only
      split
      · exact lawful_digestComplete _ (hfed _)
      · exact hfed _

theorem lawful_restart {s : State} (hs : Lawful s) : Lawful s.restart := by
  have hended : Lawful ((s.abortRunningDigest.endCommand .aborted).takeRunning .restart) :=
    (lawful_abortRunningDigest hs).keep .of_keeps
  exact lawful_beginDrain ((hended.keep (sameHoldings_retractAll _)).keep (.of_keeps (hr := rfl)))

theorem lawful_formatAccepted {s : State} (w : FormatWork) (hs : Lawful s) : Lawful (s.formatAccepted w) := by
  unfold State.formatAccepted
  split
  · have htaken : Lawful (s.takeRunning .format) := hs.keep .of_keeps
    exact lawful_beginDrain ((htaken.keep (sameHoldings_retractAll _)).keep (.of_keeps (hr := rfl)))
  · have hempty : Lawful s.withNoRecovery := hs.keep (.of_keeps (hr := rfl))
    dsimp only
    split
    · exact hempty.keep .of_keeps
    · exact hempty.keep (.of_keeps (hr := rfl))

theorem lawful_format {s : State} (hs : Lawful s) : Lawful s.format := by
  unfold State.format
  dsimp only
  split
  · exact hs.keep .of_keeps
  · split
    · exact hs.keep .of_keeps
    · exact lawful_formatAccepted _ hs

theorem lawful_formatWriteDone {s : State} (st : MemStatus) (hs : Lawful s) : Lawful (s.formatWriteDone st) := by
  have hcount (w : FormatWork) : Lawful { s with service := { s.service with format := some w } } :=
    hs.keep (.of_keeps (hr := rfl))
  unfold State.formatWriteDone
  split
  · exact hs
  · have hfailed : SameHoldings s { s with
        profile := none, journal := JournalWriter.cleared none, ckpt := CheckpointLogic.coldReset
        engine := s.engine.formatted .unformatted, service := { s.service with format := none } } := .of_keeps (hr := rfl)
    exact ((hs.keep hfailed).keep (sameHoldings_ignore _ (· == .formatWrite))).keep
      (.of_keeps (hr := by simp [State.formatFailed]) (hm := by simp [State.formatFailed]))
  · rename_i w _
    dsimp only
    split
    · have hnumbered (u : State) (n : Word) (hu : Lawful u) : Lawful { u with groups := { u.groups with nextGroup := n } } :=
        hu.keep ⟨fun _ => rfl, rfl, rfl, rfl, rfl, fun a h => ⟨a, h, rfl⟩, rfl, fun _ he _ _ => he⟩
      exact (hnumbered _ 1 (hcount { w with acked := w.acked + 1 })).keep (.of_keeps (hr := by simp [State.formatDone]) (hg := by simp [State.formatDone]))
    · exact hcount _

theorem lawful_quiesce {s : State} (hs : Lawful s) : Lawful s.quiesce := hs.keep .of_keeps

theorem lawful_resume {s : State} (hs : Lawful s) : Lawful s.resume := hs.keep .of_keeps

theorem lawful_stageFromActive {s : State} (hs : Lawful s) : Lawful s.stageFromActive := hs.keep .of_keeps

theorem lawful_unknown {s : State} (code : Byte) (hs : Lawful s) : Lawful (s.unknown code) :=
  hs.keep (sameHoldings_answerAtOnce _ _ _ _ _)

theorem lawful_offerCode {s : State} (code : Byte) (hs : Lawful s) : Lawful (s.offerCode code) := by
  unfold State.offerCode
  split
  · exact lawful_offer (fun _ => lawful_quiesce) hs
  · exact lawful_offer (fun _ => lawful_resume) hs
  · exact lawful_offer (fun _ => lawful_discardOpen) hs
  · exact lawful_offer (fun _ => lawful_clearFault) hs
  · exact lawful_restart hs
  · exact lawful_offer (fun _ => lawful_format) hs
  · exact lawful_offer (fun _ => lawful_digest) hs
  · exact lawful_abortDigest hs
  · exact lawful_offer (fun _ => lawful_stageFromActive) hs
  · exact lawful_offer (fun _ => lawful_unknown code) hs

end Sys2Proof.Machine
end

section
/-! The free-list law: every command keeps it (O58), and it holds after reset (O59). -/

namespace Sys2Proof.Machine

set_option Elab.async false

/-! ### Every command keeps the laws -/

theorem lawful_act {s : State} (st : Stream) (p : Place) (v : Verdict) (hs : Lawful s) : Lawful (s.act st p v) := by
  have hend : Lawful (s.endHold st) := hs.keep .of_keeps
  unfold State.act
  split
  · rename_i cancel
    have hcancel : Lawful (if cancel then (s.endHold st).discardOpenGroup st .cancel else s.endHold st) := by
      split
      · exact lawful_discardOpenGroup st _ hend
      · exact hend
    have hpassed (u : State) : SameHoldings u
        ((u.handOver st p false).updatePlace st p.index fun q => { q with phase := .passed }) := .of_keeps (hm := rfl)
    exact hcancel.keep (hpassed _)
  · exact hs.keep (.of_keeps (hm := rfl))
  · exact hs.keep .of_keeps
  · exact hs.keep .of_keeps
  · exact hs.keep .of_keeps
  · rename_i why reason
    exact (lawful_discardOpenGroup st why hend).keep .of_keeps
  · exact lawful_takeWrite st p _ hs

theorem lawful_admitNext {s : State} (st : Stream) (hs : Lawful s) : Lawful (s.admitNext st) := by
  unfold State.admitNext
  split
  · exact hs
  · exact lawful_act st _ _ hs

theorem lawful_reExamine {s : State} (st : Stream) (hs : Lawful s) : Lawful (s.reExamine st) := by
  unfold State.reExamine
  split
  · exact hs
  · have hpaid (h : HeldWrite) : Lawful (s.payDue st h) := hs.keep .of_keeps
    split
    · exact hpaid _
    · exact lawful_act st _ _ (hpaid _)

theorem lawful_writeRegister {s : State} (n : BitVec 6) (v : Word) (hs : Lawful s) : Lawful (s.writeRegister n v) := by
  have hdata (w : Fin 4) : Lawful (s.writeProfileData w v) := hs.keep .of_keeps
  have harg (i : Fin 4) : Lawful (s.writeArg i v) := hs.keep .of_keeps
  unfold State.writeRegister
  split
  · exact lawful_offerCode _ hs
  · exact harg _
  · exact harg _
  · exact harg _
  · exact harg _
  · split
    · exact hs.keep .of_keeps
    · exact hs
  · exact hs.keep .of_keeps
  · exact hs.keep .of_keeps
  · exact hdata _
  · exact hdata _
  · exact hdata _
  · exact hdata _
  · exact hs

theorem sameHoldings_withMgmt (s : State) (f : ManagementPort → ManagementPort) : SameHoldings s (s.withMgmt f) := .of_keeps

theorem lawful_completeFrame {s : State} (f : Frame) (hs : Lawful s) : Lawful (s.completeFrame f) := by
  unfold State.completeFrame
  dsimp only
  split
  · exact lawful_writeRegister _ _ hs
  · split
    · exact hs.keep (sameHoldings_withMgmt _ _)
    · exact hs

theorem lawful_clockInto {s : State} (f : Frame) (mosi : Bool) (hs : Lawful s) : Lawful (s.clockInto f mosi) := by
  have hout : Lawful { s with out := { s.out with miso := f.shiftedBit } } := hs.keep .of_keeps
  unfold State.clockInto
  dsimp only
  split
  · exact hout
  · split
    · exact hout.keep .of_keeps
    · split
      · exact lawful_completeFrame _ (hout.keep (sameHoldings_withMgmt _ _))
      · exact hout.keep (sameHoldings_withMgmt _ _)

theorem lawful_linkEvent {s : State} (v : Word) (e : FrameEvent) (hs : Lawful s) : Lawful (s.linkEvent v e) := by
  unfold State.linkEvent
  split
  · exact lawful_writeRegister _ v hs
  · exact hs.keep .of_keeps
  · cases s.mgmt.frame with
    | none => exact hs
    | some f => exact lawful_clockInto f _ hs
  · exact hs.keep .of_keeps

theorem lawful_happen {s t : State} {b : Bool} {f : State → State} (hf : ∀ u, Lawful u → Lawful (f u)) (hs : Lawful s)
    (ht : happen s b f = .next t) : Lawful t := by
  have hclear : Lawful s.clearOut := hs.keep .of_keeps
  rcases happen_cases s b f with ⟨-, -, h⟩ | h <;> rw [h] at ht <;> obtain rfl := Host.Outcome.next.inj ht
  · exact (hf _ hclear).keep (.of_keeps (hr := (finish_service _).2.1))
  · exact hclear

theorem lawful_acknowledge {s t : State} {serves : Purpose → Bool} {b : Bool} {f : State → State}
    (hf : ∀ u, Lawful u → Lawful (f u)) (hs : Lawful s) (ht : acknowledge s serves b f = .next t) : Lawful t := by
  refine lawful_happen (fun u hu => ?_) hs ht
  have hdrop := hu.keep (sameHoldings_dropFront u)
  split
  · exact hdrop
  · exact hf _ hdrop

/-- A completion with data keeps the laws; its entry was outstanding, and live if it acts. -/
theorem lawful_complete {s t : State} {serves : Purpose → Bool} {c : Completion} {f : Purpose → State → State}
    (hf : ∀ e ∈ s.mem.outstanding, e.live = true → ∀ u, Lawful u → u.groups = s.groups → Lawful (f e.purpose u))
    (hs : Lawful s) (ht : complete s serves c f = .next t) : Lawful t := by
  have hclear : Lawful s.clearOut := hs.keep .of_keeps
  unfold complete at ht
  split at ht
  · obtain rfl := Host.Outcome.next.inj ht
    exact hclear
  · rename_i e he
    have hmem : e ∈ s.mem.outstanding := by
      unfold State.front at he
      split at he
      · cases he
      · exact List.mem_of_mem_head? he
    have hdrop : Lawful s.clearOut.dropFront := hclear.keep (sameHoldings_dropFront _)
    split at ht
    · cases ht
    · rcases happen_cases s (serves e.purpose) fun t => if e.live then f e.purpose t.dropFront else t.dropFront with
        ⟨-, -, h⟩ | h <;> rw [h] at ht <;> obtain rfl := Host.Outcome.next.inj ht
      · refine Lawful.keep ?_ (.of_keeps (hr := (finish_service _).2.1))
        split
        · rename_i hl
          exact hf e hmem hl _ hdrop rfl
        · exact hdrop
      · exact hclear

theorem sameHoldings_passDone (s : State) (c : Completion) (p : Purpose) : SameHoldings s (s.passDone c p) := .of_keeps

theorem sameHoldings_homeReadDone (s : State) (c : Completion) (p : Purpose) : SameHoldings s (s.homeReadDone c p) := .of_keeps

theorem lawful_walkCompletion {s t : State} {c : Completion} (hs : Lawful s) (ht : execWalkReadCompletion c s = .next t) :
    Lawful t := by
  unfold execWalkReadCompletion at ht
  refine lawful_complete (fun e he hl u hu hg => ?_) hs ht
  split
  · rename_i seq hp
    refine lawful_walkDone seq c hu ?_
    obtain ⟨-, -, -, -, -, hwalk⟩ := (lawful_iff s).1 hs
    by_contra hr
    have := hwalk (by rw [← hg]; exact Option.isSome_iff_ne_none.2 hr) e he (by rw [hp]; rfl)
    simp [hl] at this
  · exact lawful_collectDone _ c hu
  · exact hu

/-- Every command keeps the three laws. -/
theorem lawful_exec {c : Instr} {s t : State} (hs : Lawful s) (ht : exec c s = .next t) : Lawful t := by
  cases c with
  | resetAssert => obtain rfl := Host.Outcome.next.inj ht; exact hs.keep .of_keeps
  | resetRelease abase => obtain rfl := Host.Outcome.next.inj ht; exact lawful_of_cleared (n := 1) rfl rfl rfl rfl
  | powerLoss => obtain rfl := Host.Outcome.next.inj ht; exact lawful_of_cleared (n := 1) rfl rfl rfl rfl
  | requestTake r =>
    simp only [exec, execRequestTake] at ht
    split at ht
    · exact lawful_happen (fun u hu => hu.keep .of_keeps) hs ht
    · cases ht
  | admission st => exact lawful_happen (fun u hu => lawful_admitNext st hu) hs ht
  | reExamination st => exact lawful_happen (fun u hu => lawful_reExamine st hu) hs ht
  | holdExpiry st => exact lawful_happen (f := (State.declineHeld · .holdExpired st)) (fun u hu => hu.keep .of_keeps) hs ht
  | memoryGrant => exact lawful_happen (fun u hu => lawful_grant hu) hs ht
  | recordIssue => exact lawful_happen (fun u hu => lawful_grant hu) hs ht
  | capture => exact lawful_happen (fun u hu => lawful_grant hu) hs ht
  | passThroughGrant => exact lawful_happen (fun u hu => lawful_grant hu) hs ht
  | homeWriteIssue => exact lawful_happen (fun u hu => lawful_grant hu) hs ht
  | checkpointIssue => exact lawful_happen (fun u hu => lawful_grant hu) hs ht
  | serviceRequestGrant => exact lawful_happen (fun u hu => lawful_grant hu) hs ht
  | rewriteIssue => exact lawful_happen (fun u hu => lawful_grant hu) hs ht
  | recordAcknowledgement => exact lawful_acknowledge (fun u hu => lawful_recordOk hu) hs ht
  | recordFailure => exact lawful_acknowledge (fun u hu => lawful_recordFailed hu) hs ht
  | rewriteAcknowledgement st => exact lawful_acknowledge (fun u hu => lawful_rewriteDone st hu) hs ht
  | startOfApply => exact lawful_happen (fun u hu => lawful_startApply hu) hs ht
  | homeWriteAcknowledgement => exact lawful_acknowledge (fun u hu => lawful_homeWriteOk hu) hs ht
  | applyFailure => exact lawful_acknowledge (fun u hu => lawful_homeWriteFailed hu) hs ht
  | checkpointAcknowledgement =>
    change execCheckpointAcknowledgement s = _ at ht
    unfold execCheckpointAcknowledgement at ht
    refine lawful_acknowledge (fun u hu => ?_) hs ht
    split
    · exact lawful_rewriteOk hu
    · exact lawful_checkpointOk hu
  | checkpointFailure second =>
    change execCheckpointFailure second s = _ at ht
    unfold execCheckpointFailure at ht
    refine lawful_acknowledge (fun u hu => ?_) hs ht
    split
    · exact lawful_rewriteFailed hu
    · exact lawful_checkpointFailed hu
  | anchorFirstHalfCompletion st => exact lawful_acknowledge (fun u hu => lawful_firstHalfDone _ st hu) hs ht
  | passThroughCompletion x =>
    change execPassThroughCompletion x s = _ at ht
    unfold execPassThroughCompletion at ht
    exact lawful_complete (fun _ _ _ u hu _ => hu.keep (sameHoldings_passDone u x _)) hs ht
  | homeReadDataReturn x =>
    change execHomeReadDataReturn x s = _ at ht
    unfold execHomeReadDataReturn at ht
    exact lawful_complete (fun _ _ _ u hu _ => hu.keep (sameHoldings_homeReadDone u x _)) hs ht
  | drainCompletion => exact lawful_happen (fun u hu => lawful_drainCheck (hu.keep (sameHoldings_dropFront u))) hs ht
  | anchorReadCompletion x =>
    change execAnchorReadCompletion x s = _ at ht
    unfold execAnchorReadCompletion at ht
    exact lawful_complete (fun _ _ _ u hu _ => lawful_anchorReadDone x hu) hs ht
  | scanReadCompletion x =>
    change execScanReadCompletion x s = _ at ht
    unfold execScanReadCompletion at ht
    refine lawful_complete (fun e _ _ u hu _ => ?_) hs ht
    split
    · exact lawful_scanDone _ x hu
    · exact hu
  | walkReadCompletion x => exact lawful_walkCompletion hs ht
  | replayWriteCompletion st =>
    change execReplayWriteCompletion st s = _ at ht
    unfold execReplayWriteCompletion at ht
    refine lawful_acknowledge (fun u hu => ?_) hs ht
    split
    · exact lawful_replayWriteOk hu
    · exact hu.keep (sameHoldings_recoveryFault _ _)
  | formatAnchorWriteCompletion st => exact lawful_acknowledge (fun u hu => lawful_formatWriteDone st hu) hs ht
  | digestReadCompletion x =>
    change execDigestReadCompletion x s = _ at ht
    unfold execDigestReadCompletion at ht
    exact lawful_complete (fun _ _ _ u hu _ => lawful_digestReadDone x hu) hs ht
  | quiesce => exact lawful_happen (fun _ => lawful_offer fun _ => lawful_quiesce) hs ht
  | resume => exact lawful_happen (fun _ => lawful_offer fun _ => lawful_resume) hs ht
  | discardOpen => exact lawful_happen (fun _ => lawful_offer fun _ => lawful_discardOpen) hs ht
  | clearFault => exact lawful_happen (fun _ => lawful_offer fun _ => lawful_clearFault) hs ht
  | restart => exact lawful_happen (fun u hu => lawful_restart hu) hs ht
  | format => exact lawful_happen (fun _ => lawful_offer fun _ => lawful_format) hs ht
  | digest => exact lawful_happen (fun _ => lawful_offer fun _ => lawful_digest) hs ht
  | abortDigest => exact lawful_happen (fun u hu => lawful_abortDigest hu) hs ht
  | stageFromActive => exact lawful_happen (fun _ => lawful_offer fun _ => lawful_stageFromActive) hs ht
  | unknownCommand code => exact lawful_happen (fun u hu => lawful_offerCode code hu) hs ht
  | eventPop => exact lawful_happen (f := State.popEvent) (fun u hu => hu.keep .of_keeps) hs ht
  | intEnableWrite value => exact lawful_happen (f := (State.writeIntEnable · value)) (fun u hu => hu.keep .of_keeps) hs ht
  | lostClear => exact lawful_happen (f := State.clearLost) (fun u hu => hu.keep .of_keeps) hs ht
  | profileDataWrite w value => exact lawful_happen (f := (State.writeProfileData · w value)) (fun u hu => hu.keep .of_keeps) hs ht
  | registerWrite n value => exact lawful_happen (fun u hu => lawful_linkEvent value n hu) hs ht

/-- Settles O58: every step keeps the free-list law, the law of the identities and the law of the replay's descriptor. -/
theorem stepKeepsTheFreeListLaw : Obligations.StepKeepsTheFreeListLaw := by
  unfold Obligations.StepKeepsTheFreeListLaw
  intro s t hs ht
  unfold step at ht
  split at ht
  · obtain rfl := Host.Outcome.next.inj ht
    exact hs
  · rename_i c rest _
    exact lawful_exec (s := { s with pending := rest }) hs ht

/-! ### The state after reset -/

/-- Settles O59: every law holds of the state after reset. -/
theorem resetKeepsTheLaws : Obligations.ResetKeepsTheLaws := by
  have hports (st : Stream) : (getV State.reset.ports st).places = [] := by simp [State.reset, State.coldReset]
  have hlawful : Lawful State.reset := lawful_coldReset 0
  have hevents : EventLaw State.reset := by simp [EventLaw, State.reset, State.coldReset]
  have hplaces : PlaceLaw State.reset := fun st => by simp [hports st]
  have hfront : NoReadyFront State.reset := fun st p hp => by simp [hports st] at hp
  have hindex : IndexLaw State.reset := ⟨List.Pairwise.nil, fun e he => by cases he⟩
  exact ⟨hevents, hplaces, Nat.zero_le _, Nat.zero_le _, hfront, hindex, hlawful.1, hlawful.2.1, hlawful.2.2,
    fun _ => ⟨rfl, rfl, rfl, rfl⟩⟩

end Sys2Proof.Machine
end

section
/-! SUPPORT. Effects with their frame, holds that are owed, the tests after a discard or a retire, and one discard. -/

namespace Sys2Proof.Machine

set_option Elab.async false

/-! ### An effect and its frame, in two parts -/

theorem Becomes.trans {t u v : State} (h : Becomes t u) (h' : Becomes u v) : Becomes t v := by
  unfold Becomes at h h' ⊢
  rw [h, h']

/-- What `Becomes` says of each field. -/
theorem becomes_of_fields {t u : State} (h1 : t.run = u.run) (h2 : t.abase = u.abase) (h3 : t.now = u.now)
    (h4 : t.ports = u.ports) (h5 : t.profile = u.profile) (h6 : t.groups = u.groups) (h7 : t.pool = u.pool)
    (h8 : t.index = u.index) (h9 : t.holds = u.holds) (h10 : t.journal = u.journal) (h11 : t.apply = u.apply)
    (h12 : t.ckpt = u.ckpt) (h13 : t.mem = u.mem)
    (h14 : t.service = { u.service with readyOrder := t.service.readyOrder }) (h15 : t.engine = u.engine)
    (h16 : t.mgmt = u.mgmt) (h19 : t.pending = u.pending) : Becomes t u :=
  State.ext_fields h1 h2 h3 h4 h5 h6 h7 h8 h9 h10 h11 h12 h13 h14 h15 h16 rfl rfl h19

/-! ### Holds owed a re-examination (R67) -/

theorem getV_owe (s : State) (f : Stream → HeldWrite → Bool) (o : Stream) :
    getV (s.owe f).holds o = (getV s.holds o).map fun w => if f o w then { w with due := w.due + 1 } else w := by
  simp [State.owe]

/-- Holds changed stream by stream owe what the change says. -/
theorem owes_of_map {s t : State} {f : Stream → HeldWrite → Bool} {p : Stream → HeldWrite → Prop}
    (ht : ∀ o, getV t.holds o = (getV s.holds o).map fun w => if f o w then { w with due := w.due + 1 } else w)
    (hp : ∀ o w, f o w = true ↔ p o w) : Owes s t p := by
  intro o
  refine ⟨fun h => by rw [ht, h]; rfl, fun w h => ⟨fun hw => ?_, fun hw => ?_⟩⟩
  · rw [ht, h, Option.map_some, if_pos ((hp o w).2 hw)]
  · rw [ht, h, Option.map_some, if_neg (fun hf => hw ((hp o w).1 hf))]

theorem Owes.congr {s t t' : State} {p : Stream → HeldWrite → Prop} (h : Owes s t p) (ht : t'.holds = t.holds) :
    Owes s t' p := by
  unfold Owes at h ⊢
  rwa [ht]

/-! ### The distance trigger and the quiesce-completion test (R130, R167) -/

theorem distanceHolds_congr {s t : State} (hj : t.journal = s.journal) (hd : t.ckpt.durableTail = s.ckpt.durableTail) :
    t.distanceHolds = s.distanceHolds := by
  have hring : t.ringSize = s.ringSize := by unfold State.ringSize; rw [hj]
  unfold State.distanceHolds State.distance
  rw [hring, hj, hd]

theorem noGroup_congr {s t : State} (h : t.groups = s.groups) : t.noGroup = s.noGroup := by
  simp [State.noGroup, State.openCount, h]

theorem quiesces_congr {s t t' : State} (he : t'.engine = t.engine) (hg : t'.groups = t.groups) (hj : t'.journal = t.journal) :
    quiesces s t' = quiesces s t := by
  simp [quiesces, he, hj, noGroup_congr hg]

theorem WantsAfter.congr {s t t' : State} {n : Word} (h : WantsAfter s t n) (hc : t'.ckpt = t.ckpt)
    (he : t'.engine = t.engine) (hg : t'.groups = t.groups) (hj : t'.journal = t.journal) : WantsAfter s t' n := by
  unfold WantsAfter at h ⊢
  rw [distanceHolds_congr hj (by rw [hc]), quiesces_congr he hg hj, hc]
  exact h

theorem WantsAfter.of_ckpt {s s' t : State} {n : Word} (h : WantsAfter s t n) (hc : s'.ckpt = s.ckpt) : WantsAfter s' t n := by
  unfold WantsAfter quiesces at h ⊢
  rwa [hc]

/-- What the two tests make of the Checkpoint Logic. -/
theorem wantsAfter_tests (s : State) : WantsAfter s s.distanceTrigger.quiesceTest s.ckpt.retiredThrough := by
  have htrigger : s.distanceTrigger.ckpt = { s.ckpt with pending := s.ckpt.pending || s.distanceHolds } := by
    unfold State.distanceTrigger
    split <;> simp [State.wantCheckpoint, *]
  have hquiet : s.distanceTrigger.ckpt.holdsQuiesce = s.ckpt.holdsQuiesce := by rw [htrigger]; rfl
  have hholds : s.distanceTrigger.quiesceTest.distanceHolds = s.distanceHolds := by
    refine distanceHolds_congr (by simp) ?_
    unfold State.quiesceTest
    split <;> simp [State.requestCheckpoint, htrigger]
  have htest : (s.distanceTrigger.engine.state = .quiescing && s.distanceTrigger.noGroup
      && s.distanceTrigger.journal.outstanding.isEmpty && !s.distanceTrigger.ckpt.holdsQuiesce)
        = quiesces s s.distanceTrigger.quiesceTest := by
    rw [hquiet, quiesces]
    simp [noGroup_congr (s := s) (t := s.distanceTrigger), noGroup_congr (s := s) (t := s.distanceTrigger.quiesceTest)]
  unfold WantsAfter
  rw [hholds, ← htest]
  unfold State.quiesceTest
  split
  · rename_i h
    rw [h]
    simp [State.requestCheckpoint, htrigger]
  · rename_i h
    rw [Bool.not_eq_true] at h
    rw [h]
    simp [htrigger]

/-! ### Discards (R19, R20, R32, R115) -/

theorem DiscardsGroup.congr {s t t' : State} {st : Stream} {g : Group} (h : DiscardsGroup s t st g)
    (hg : t'.groups = t.groups) (hp : t'.pool = t.pool) (hi : t'.index = t.index) (hj : t'.journal = t.journal) :
    DiscardsGroup s t' st g := by
  unfold DiscardsGroup State.slot at h ⊢
  rwa [hg, hp, hi, hj]

/-- A released slot loses its content, every other keeps it (R8, R19). -/
theorem release_slot (p : SlotPool) (ids : List SlotId) (id : SlotId) :
    getV (p.release ids).slots id = if id ∈ ids then none else getV p.slots id := by
  have hfold : ∀ (ids : List SlotId) (v : Vector (Option Slot) 256),
      getV (ids.foldl (fun v id => setV v id none) v) id = if id ∈ ids then none else getV v id := by
    intro ids
    induction ids with
    | nil => intro v; simp
    | cons i ids ih =>
      intro v
      rw [List.foldl_cons, ih, getV_setV]
      by_cases hi : id = i <;> by_cases hids : id ∈ ids <;> simp [hi, hids]
  exact hfold ids p.slots

theorem discardGroup_discards (s : State) (st : Stream) (g : Group) (reason : DiscardReason) :
    DiscardsGroup s (s.discardGroup st g reason) st g := by
  refine ⟨rfl, rfl, fun id => release_slot s.pool g.entries id, rfl, ?_⟩
  simp [State.discardGroup, State.recomputeLiveTail, State.pushEvent, IssuedRecord.discard]

/-- The parts of the state a discard changes. -/
theorem discardGroup_eq (s : State) (st : Stream) (g : Group) (reason : DiscardReason) :
    s.discardGroup st g reason = { s with
      groups := (s.discardGroup st g reason).groups, pool := (s.discardGroup st g reason).pool
      index := (s.discardGroup st g reason).index, journal := (s.discardGroup st g reason).journal
      mgmt := ({ s.mgmt with discards := s.mgmt.discards + 1 }).push (.groupDiscarded st g.number reason) } := rfl

/-- The holds that what follows a discard owes a re-examination (R67, R71). -/
theorem owes_afterDiscard (s : State) (released : List Line) :
    Owes s (s.afterDiscard released) fun o w => w.kind = .space
      ∨ w.kind = .conflict ∧ ∃ l ∈ s.heldLines o w, l ∈ released := by
  have hkeeps : (s.afterDiscard released).holds = ((s.oweConflict released).oweSpace).holds := by
    simp only [State.afterDiscard, State.quiesceTest_keeps, State.distanceTrigger_keeps]
  refine owes_of_map (f := fun o w => decide (w.kind = .space)
    || (decide (w.kind = .conflict) && (s.heldLines o w).any released.contains)) (fun o => ?_) fun o w => by simp
  rw [hkeeps, State.oweSpace, State.oweConflict, getV_owe, getV_owe, Option.map_map]
  congr 1
  funext w
  cases hk : w.kind <;> simp [hk]
  split <;> simp [*]

theorem wantsAfter_afterDiscard (s : State) (released : List Line) :
    WantsAfter s (s.afterDiscard released) s.ckpt.retiredThrough :=
  wantsAfter_tests ((s.oweConflict released).oweSpace)

/-- The parts of the state that what follows a discard changes. -/
theorem afterDiscard_eq (s : State) (released : List Line) :
    s.afterDiscard released
      = { s with holds := (s.afterDiscard released).holds, ckpt := (s.afterDiscard released).ckpt } := by
  apply State.ext_fields <;> simp

end Sys2Proof.Machine
end

section
/-! The cancel action of a pass-through write (O8). -/

namespace Sys2Proof.Machine

set_option Elab.async false

/-! ### The OPEN group of a stream is discarded in an examination -/

/-- Everything a discard does with what follows it (R18, R19, R33, R67, R130, R167). -/
structure DiscardEffects (s t : State) (st : Stream) (g : Group) (why : DiscardReason) : Prop where
  discards : DiscardsGroup s t st g
  mgmt : t.mgmt = ({ s.mgmt with discards := s.mgmt.discards + 1 }).push (.groupDiscarded st g.number why)
  wants : WantsAfter s t s.ckpt.retiredThrough
  owes : Owes s t fun o w => w.kind = .space ∨ w.kind = .conflict ∧ ∃ l ∈ s.heldLines o w, l ∈ s.discardReleases g
  rest : t = { s with
    groups := t.groups, pool := t.pool, index := t.index, journal := t.journal, ckpt := t.ckpt, mgmt := t.mgmt
    holds := t.holds }

theorem discardOpenGroup_effects {s : State} {st : Stream} {g : Group} (why : DiscardReason) (hg : s.openGroup? st = some g) :
    DiscardEffects s (s.discardOpenGroup st why) st g why := by
  have h : s.discardOpenGroup st why = (s.discardGroup st g why).afterDiscard (s.discardReleases g) := by
    simp only [State.discardOpenGroup, hg]
  rw [h]
  exact {
    discards := (discardGroup_discards s st g why).congr (by simp) (by simp) (by simp) (by simp)
    mgmt := by simp only [State.afterDiscard_keeps]; rfl
    wants := (wantsAfter_afterDiscard (s.discardGroup st g why) _).of_ckpt rfl
    owes := owes_afterDiscard (s.discardGroup st g why) _
    rest := by apply State.ext_fields <;> simp }

theorem DiscardEffects.keeps {s t : State} {st : Stream} {g : Group} {why : DiscardReason} (h : DiscardEffects s t st g why) :
    t.run = s.run ∧ t.abase = s.abase ∧ t.now = s.now ∧ t.ports = s.ports ∧ t.profile = s.profile ∧ t.apply = s.apply
      ∧ t.mem = s.mem ∧ t.service = s.service ∧ t.engine = s.engine ∧ t.out = s.out ∧ t.pending = s.pending := by
  rw [h.rest]
  exact ⟨rfl, rfl, rfl, rfl, rfl, rfl, rfl, rfl, rfl, rfl, rfl⟩

theorem discardOpenGroup_none {s : State} {st : Stream} (why : DiscardReason) (hg : s.openGroup? st = none) :
    s.discardOpenGroup st why = s := by
  simp only [State.discardOpenGroup, hg]

/-- The re-examination that is paid is forgotten when the hold ends. -/
theorem endHold_paid (s : State) (st : Stream) (c : Instr) : (s.paid st c).endHold st = s.endHold st := by
  unfold State.paid
  split
  · split
    · rfl
    · simp only [State.payDue, State.endHold, setV_setV]
  · rfl

/-- The pass-through behind a cancel action that has led from `s` without the hold to `v`. -/
theorem cancelled_passes {s v t : State} {st : Stream} {p : Place} {g : Group} (hlive : Live s)
    (heff : DiscardEffects (s.clearOut.endHold st) v st g .cancel)
    (ht : t = ((v.handOver st p false).updatePlace st p.index fun q => { q with phase := .passed }).finish) :
    t.out = Outputs.none ∧ Becomes t { s with
      groups := t.groups, pool := t.pool, index := t.index, journal := t.journal, ckpt := t.ckpt, mgmt := t.mgmt
      holds := t.holds, mem := { s.mem with path := handedOver s st p false }
      ports := (s.updatePlace st p.index fun q => { q with phase := .passed }).ports } := by
  obtain ⟨hrun, habase, hnow, hports, hprofile, happly, hmem, hservice, hengine, hout, hpending⟩ := heff.keeps
  have hpassed : (State.updatePlace (v.handOver st p false) st p.index fun q => { q with phase := .passed }).ports
      = (s.updatePlace st p.index fun q => { q with phase := .passed }).ports := by
    simp only [State.updatePlace, State.handOver, hports]
    rfl
  have hquiet := noReadyFront_of_ports (noReadyFront_updatePlace hlive.2 st p.index _ fun q x => by simp) hpassed
  subst ht
  refine ⟨(out_finish_quiet hquiet).trans hout, (becomes_finish_quiet hquiet).trans ?_⟩
  refine becomes_of_fields hrun habase hnow hpassed hprofile ?_ ?_ ?_ ?_ ?_ happly ?_ ?_ ?_ hengine ?_ hpending
  case refine_7 => simp [State.handOver, hmem, handedOver]
  case refine_8 => simp [hservice]
  all_goals simp

/-- Settles O8: the cancel action of a pass-through write. -/
theorem cancelWriteDiscardsOpenGroup : Obligations.CancelWriteDiscardsOpenGroup := by
  unfold Obligations.CancelWriteDiscardsOpenGroup
  intro s c st p g hlive hex hpass hg
  have heff := discardOpenGroup_effects (s := s.clearOut.endHold st) .cancel hg
  have hexec := exec_of_examines hlive.1 hex
  rw [classify_of_passesAt hpass] at hexec
  simp only [State.act, State.passThrough, endHold_paid, if_true] at hexec
  obtain ⟨hout, hbecomes⟩ := cancelled_passes hlive heff rfl
  refine ⟨_, hexec, ?_, hout, ?_, ?_, ?_, hbecomes⟩
  · exact heff.discards.congr (by simp) (by simp) (by simp) (by simp)
  · simp only [State.finish_keeps, State.updatePlace_keeps, State.handOver_keeps]
    exact heff.mgmt
  · exact heff.wants.congr (by simp) (by simp) (by simp) (by simp)
  · exact heff.owes.congr (by simp)

end Sys2Proof.Machine
end

section
/-! A write over the entry limit or short of space (O12). -/

namespace Sys2Proof.Machine

set_option Elab.async false

/-- The ports after a decline: the place refuses its request (R62). -/
theorem decline_ports (s : State) (st : Stream) (p : Place) (reason : DeclineReason) : (s.decline st p reason).ports
    = setV s.ports st { (getV s.ports st) with places := (getV s.ports st).places.map (Place.refuse p.index reason) } := rfl

theorem decline_mgmt (s : State) (st : Stream) (p : Place) (reason : DeclineReason) : (s.decline st p reason).mgmt
    = ({ s.mgmt with declines := s.mgmt.declines + 1 }).push (.decline st p.request.addr reason p.request.tag) := rfl

theorem finish_mgmt (s : State) : s.finish.mgmt = s.mgmt := by simp

theorem push_declines (m : ManagementPort) (e : Event) : (m.push e).declines = m.declines := by simp

/-- A decline that ends an event whose outputs and ports were untouched so far. -/
theorem decline_finish {s v : State} {st : Stream} {p : Place} (reason : DeclineReason) (hlive : Live s)
    (hmem : p ∈ (getV s.ports st).places) (hports : v.ports = s.ports) (hout : v.out = Outputs.none) :
    Answered (v.decline st p reason).finish st p (.declined reason)
      ∧ Settles s (v.decline st p reason).finish st (Place.refuse p.index reason)
      ∧ (v.decline st p reason).finish.out.issued = none := by
  refine ⟨(decline_declined (s := v) (by rwa [hports])).1, settles_finish hlive.2 ?_ ?_, ?_⟩
  · rw [decline_ports, hports]
  · show v.out.responses = []
    rw [hout]; rfl
  · rw [finish_issued]
    show v.out.issued = none
    rw [hout]; rfl

/-- Settles O12: the discard and the decline of a write that cannot be taken. -/
theorem groupLimitAndOverflowDiscard : Obligations.GroupLimitAndOverflowDiscard := by
  unfold Obligations.GroupLimitAndOverflowDiscard
  intro s c st p why reason hlive hex hover hwhy
  have hreason : (if why = .groupLimit then DeclineReason.groupLimit else .overflow) = reason := by
    rcases hwhy with ⟨rfl, rfl⟩ | ⟨rfl, rfl⟩ <;> rfl
  let u := s.clearOut.endHold st
  have hexec : exec c s = .next ((u.discardOpenGroup st why).decline st p reason).finish := by
    rw [exec_of_examines hlive.1 hex, classify_of_overflowsAt hover, hreason]
    simp only [State.act, endHold_paid]
    rfl
  have hmem := examines_mem hex
  cases hg : s.openGroup? st with
  | none =>
    rw [discardOpenGroup_none (s := u) why hg] at hexec
    obtain ⟨hanswered, hsettles, hissued⟩ := decline_finish (v := u) reason hlive hmem rfl rfl
    refine ⟨_, hexec, hanswered, hsettles, hissued, fun _ => ⟨finish_mgmt _, ?_⟩, fun g h => by cases h⟩
    refine (becomes_finish _).trans ?_
    exact becomes_of_fields rfl rfl rfl rfl rfl rfl rfl rfl rfl rfl rfl rfl rfl rfl rfl (by simp) rfl
  | some g =>
    have heff := discardOpenGroup_effects (s := u) why hg
    obtain ⟨hrun, habase, hnow, hports, hprofile, happly, hmemory, hservice, hengine, hout, hpending⟩ := heff.keeps
    obtain ⟨hanswered, hsettles, hissued⟩ := decline_finish reason hlive hmem hports hout
    refine ⟨_, hexec, hanswered, hsettles, hissued, fun h => by simp at h, fun g' h => ?_⟩
    obtain rfl := Option.some.inj h
    refine ⟨?_, ?_, ?_, ?_, ?_⟩
    · exact heff.discards.congr (by simp) (by simp) (by simp) (by simp)
    · rw [finish_mgmt, decline_mgmt, heff.mgmt, push_declines]
      rfl
    · exact heff.wants.congr (by simp) (by simp) (by simp) (by simp)
    · exact heff.owes.congr (by simp)
    · refine (becomes_finish _).trans ?_
      refine becomes_of_fields hrun habase hnow rfl hprofile ?_ ?_ ?_ ?_ ?_ happly ?_ hmemory ?_ hengine ?_ hpending
      all_goals simp [u]

end Sys2Proof.Machine
end

section
/-! SUPPORT. Held writes that are declined, and the Line Index under several discards. -/

namespace Sys2Proof.Machine

set_option Elab.async false

/-! ### A held write that is declined (R62, R66, R82) -/

/-- The end of an event puts the responses that leave on the port, and nothing else. -/
theorem finish_out (s : State) : s.finish.out = { s.out with
    responses := s.out.responses ++ allStreams.flatMap fun st => (departures (getV s.ports st).places).1 } := by
  simp only [State.finish, State.refreshReady_keeps, State.departAll]

theorem declineHeld_holds (s : State) (reason : DeclineReason) (st : Stream) :
    (s.declineHeld reason st).holds = setV s.holds st none := by
  unfold State.declineHeld
  split
  · rename_i h
    rw [← h, setV_getV]
  · split <;> rfl

theorem declineHeld_ports (s : State) (reason : DeclineReason) (st : Stream) : (s.declineHeld reason st).ports
    = (s.heldPlace st).elim s.ports fun p =>
        setV s.ports st { (getV s.ports st) with places := (getV s.ports st).places.map (Place.refuse p.index reason) } := by
  unfold State.declineHeld State.heldPlace
  split
  · rename_i h; rw [h]; rfl
  · rename_i h hh
    rw [hh, Option.bind_some]
    cases s.place? st h.place <;> rfl

theorem declineHeld_mgmt (s : State) (reason : DeclineReason) (st : Stream) : (s.declineHeld reason st).mgmt
    = (s.heldPlace st).elim s.mgmt fun p =>
        ({ s.mgmt with declines := s.mgmt.declines + 1 }).push (.decline st p.request.addr reason p.request.tag) := by
  unfold State.declineHeld State.heldPlace
  split
  · rename_i h; rw [h]; rfl
  · rename_i h hh
    rw [hh, Option.bind_some]
    cases s.place? st h.place <;> rfl

/-- The held write of a stream is found by its own port and hold. -/
theorem heldPlace_congr {s t : State} {st : Stream} (hh : getV t.holds st = getV s.holds st)
    (hp : getV t.ports st = getV s.ports st) : t.heldPlace st = s.heldPlace st := by
  unfold State.heldPlace State.place?
  rw [hh, hp]

/-! ### The Line Index under several discards (R32, R33) -/

/-- An entry after the groups with these slots have been discarded. -/
def IndexEntry.discardAll (opens : List (Stream × Group)) (e : IndexEntry) : IndexEntry :=
  opens.foldl (fun e x => e.discard x.2.entries) e

/-- The index after the groups with these slots have been discarded one after another. -/
def indexDiscardAll (opens : List (Stream × Group)) (index : List IndexEntry) : List IndexEntry :=
  opens.foldl (fun index x => indexUpdate (fun e => e.discard x.2.entries) index) index

/-- What a discard does to an entry: nothing, or its open version and perhaps its owner go. -/
theorem discard_cases (e : IndexEntry) (ids : List SlotId) :
    e.discard ids = e ∨ e.openPart.isSome ∧ (e.discard ids).openPart = none ∧ (e.discard ids).line = e.line
      ∧ ((e.discard ids).owner = none ∨ (e.discard ids).owner = e.owner) := by
  unfold IndexEntry.discard
  split
  · exact .inl rfl
  · rename_i id h
    split
    · refine .inr ⟨by simp [h], rfl, rfl, ?_⟩
      dsimp only
      split
      · exact .inl rfl
      · exact .inr rfl
    · exact .inl rfl

theorem discard_line (e : IndexEntry) (ids : List SlotId) : (e.discard ids).line = e.line := by
  rcases discard_cases e ids with h | ⟨-, -, h, -⟩
  · rw [h]
  · exact h

theorem discard_owner_none {e : IndexEntry} (ids : List SlotId) (h : e.owner = none) : (e.discard ids).owner = none := by
  rcases discard_cases e ids with h' | ⟨-, -, -, h' | h'⟩
  · rw [h', h]
  · exact h'
  · rw [h', h]

theorem discard_open_isSome {e : IndexEntry} {ids : List SlotId} (h : (e.discard ids).openPart.isSome) : e.openPart.isSome := by
  rcases discard_cases e ids with h' | ⟨h', -⟩
  · rwa [h'] at h
  · exact h'

theorem discardAll_line (opens : List (Stream × Group)) (e : IndexEntry) : (e.discardAll opens).line = e.line := by
  induction opens generalizing e with
  | nil => rfl
  | cons x opens ih => exact (ih _).trans (discard_line _ _)

theorem discardAll_owner_none (opens : List (Stream × Group)) {e : IndexEntry} (h : e.owner = none) :
    (e.discardAll opens).owner = none := by
  induction opens generalizing e with
  | nil => exact h
  | cons x opens ih => exact ih (discard_owner_none _ h)

theorem discardAll_open_isSome (opens : List (Stream × Group)) {e : IndexEntry} (h : (e.discardAll opens).openPart.isSome) :
    e.openPart.isSome := by
  induction opens generalizing e with
  | nil => exact h
  | cons x opens ih => exact discard_open_isSome (ih h)

theorem mem_indexUpdate {f : IndexEntry → IndexEntry} {index : List IndexEntry} {e : IndexEntry} :
    e ∈ indexUpdate f index ↔ (∃ e' ∈ index, f e' = e) ∧ e.isEmpty = false := by
  simp [indexUpdate]

/-- What is left in the index comes from an entry that was there. -/
theorem mem_of_mem_indexDiscardAll {opens : List (Stream × Group)} {index : List IndexEntry} {e : IndexEntry}
    (h : e ∈ indexDiscardAll opens index) : ∃ e' ∈ index, e'.discardAll opens = e := by
  induction opens generalizing index with
  | nil => exact ⟨e, h, rfl⟩
  | cons x opens ih =>
    obtain ⟨e', he', rfl⟩ := ih h
    obtain ⟨⟨e0, he0, rfl⟩, -⟩ := mem_indexUpdate.1 he'
    exact ⟨e0, he0, rfl⟩

/-- An entry that keeps its open version stays in the index. -/
theorem mem_indexDiscardAll {opens : List (Stream × Group)} {index : List IndexEntry} {e : IndexEntry} (he : e ∈ index)
    (h : (e.discardAll opens).openPart.isSome) : e.discardAll opens ∈ indexDiscardAll opens index := by
  induction opens generalizing index e with
  | nil => exact he
  | cons x opens ih =>
    have hopen : (e.discard x.2.entries).openPart.isSome := discardAll_open_isSome opens h
    refine ih (mem_indexUpdate.2 ⟨⟨e, he, rfl⟩, ?_⟩) h
    simp only [IndexEntry.isEmpty, Bool.and_eq_false_imp]
    exact fun _ => by simpa using hopen

theorem mem_releasedBy {f : IndexEntry → IndexEntry} {index : List IndexEntry} {l : Line} :
    l ∈ releasedBy f index ↔ ∃ e ∈ index, e.owner.isSome ∧ (f e).owner = none ∧ e.line = l := by
  simp [releasedBy, and_assoc]

/-- The lines that one more discard releases (R33). -/
theorem mem_releasedBy_discardAll (opens : List (Stream × Group)) (x : Stream × Group) (index : List IndexEntry) (l : Line) :
    l ∈ releasedBy (IndexEntry.discardAll (opens ++ [x])) index
      ↔ l ∈ releasedBy (IndexEntry.discardAll opens) index
        ∨ l ∈ releasedBy (fun e => e.discard x.2.entries) (indexDiscardAll opens index) := by
  have hlast (e : IndexEntry) : e.discardAll (opens ++ [x]) = (e.discardAll opens).discard x.2.entries := by
    simp [IndexEntry.discardAll]
  simp only [mem_releasedBy, hlast]
  constructor
  · rintro ⟨e, he, howner, hnone, hline⟩
    cases h : (e.discardAll opens).owner with
    | none => exact .inl ⟨e, he, howner, h, hline⟩
    | some o =>
      have hopen : (e.discardAll opens).openPart.isSome := by
        rcases discard_cases (e.discardAll opens) x.2.entries with h' | ⟨h', -⟩
        · rw [h', h] at hnone; cases hnone
        · exact h'
      exact .inr ⟨_, mem_indexDiscardAll he hopen, by simp [h], hnone, (discardAll_line _ _).trans hline⟩
  · rintro (⟨e, he, howner, hnone, hline⟩ | ⟨e, he, howner, hnone, hline⟩)
    · exact ⟨e, he, howner, discard_owner_none _ hnone, hline⟩
    · obtain ⟨e0, he0, rfl⟩ := mem_of_mem_indexDiscardAll he
      refine ⟨e0, he0, ?_, hnone, (discardAll_line _ _).symm.trans hline⟩
      rw [Option.isSome_iff_ne_none]
      intro h0
      rw [discardAll_owner_none opens h0] at howner
      cases howner

end Sys2Proof.Machine
end

section
/-! SUPPORT. The loop of DISCARD_OPEN. -/

namespace Sys2Proof.Machine

set_option Elab.async false

/-! ### DISCARD_OPEN, stream by stream (R168) -/

/-- The OPEN groups of these streams, each with its stream. -/
def State.openGroupsOf (s : State) (sts : List Stream) : List (Stream × Group) :=
  sts.filterMap fun st => (s.openGroup? st).map fun g => (st, g)

/-- What the discards of the OPEN groups of these streams have made of `s`, and the lines they have released: the state that
DISCARD_OPEN's loop has reached. -/
structure Discarding (s : State) (sts : List Stream) (x : State × List Line) : Prop where
  groups : x.1.groups = { s.groups with
    opens := mapStreams (fun st g => if st ∈ sts then none else g) s.groups.opens }
  free : x.1.pool.free = s.pool.free ++ (s.openGroupsOf sts).flatMap (·.2.entries)
  slots : ∀ id, x.1.slot id = if id ∈ (s.openGroupsOf sts).flatMap (·.2.entries) then none else s.slot id
  index : x.1.index = indexDiscardAll (s.openGroupsOf sts) s.index
  journal : x.1.journal = { s.journal with
    queue := s.journal.queue.filter fun q => (s.openGroupsOf sts).all fun x => q.group ≠ x.2.ref
    failed := s.journal.failed.map fun r =>
      if (s.openGroupsOf sts).any (fun x => r.group = x.2.ref) then { r with kind := .filler } else r
    liveTail := if s.openGroupsOf sts = [] then s.journal.liveTail
      else liveTailOf s.ckpt.durableTail s.journal.head x.1.groups.all }
  mgmt : x.1.mgmt = (s.openGroupsOf sts).foldl (fun m x => m.discardedOpen x.1 x.2 (s.heldPlace x.1)) s.mgmt
  holds : ∀ o, getV x.1.holds o = if o ∈ sts ∧ (s.openGroup? o).isSome then none else getV s.holds o
  ports : ∀ o, getV x.1.ports o
    = if o ∈ sts then { (getV s.ports o) with places := s.placesDiscarded o } else getV s.ports o
  released : ∀ l, l ∈ x.2 ↔ l ∈ releasedBy (IndexEntry.discardAll (s.openGroupsOf sts)) s.index
  rest : x.1 = { s with
    groups := x.1.groups, pool := x.1.pool, index := x.1.index, journal := x.1.journal, mgmt := x.1.mgmt
    holds := x.1.holds, ports := x.1.ports }

theorem openGroupsOf_append (s : State) (sts : List Stream) (st : Stream) :
    s.openGroupsOf (sts ++ [st]) = s.openGroupsOf sts ++ ((s.openGroup? st).map fun g => (st, g)).toList := by
  simp only [State.openGroupsOf, List.filterMap_append]
  cases h : s.openGroup? st <;> simp [h]

/-- Before the loop nothing has been discarded. -/
theorem discarding_nil (s : State) : Discarding s [] (s, []) where
  groups := by
    have : mapStreams (fun st g => if st ∈ ([] : List Stream) then none else g) s.groups.opens = s.groups.opens :=
      tables_ext _ _ fun i => by simp
    rw [this]
  free := by simp [State.openGroupsOf]
  slots id := by simp [State.openGroupsOf]
  index := rfl
  journal := by
    show s.journal = _
    simp [State.openGroupsOf]
  mgmt := rfl
  holds o := by simp
  ports o := by simp
  released l := by
    refine ⟨fun h => absurd h List.not_mem_nil, fun h => ?_⟩
    obtain ⟨e, -, howner, hnone, -⟩ := mem_releasedBy.1 h
    change e.owner = none at hnone
    simp [hnone] at howner
  rest := rfl

/-- A stream without an OPEN group is passed over. -/
theorem discarding_pass {s : State} {sts : List Stream} {x : State × List Line} {st : Stream} (h : Discarding s sts x)
    (hst : st ∉ sts) (hg : s.openGroup? st = none) : Discarding s (sts ++ [st]) (State.discardStream x st) := by
  have hopens : s.openGroupsOf (sts ++ [st]) = s.openGroupsOf sts := by rw [openGroupsOf_append, hg]; simp
  have hnone : x.1.openGroup? st = none := by
    have := hg
    unfold State.openGroup? at this ⊢
    rw [h.groups]
    simp [hst, this]
  have hx : State.discardStream x st = x := by simp only [State.discardStream, hnone]
  have hsame (o : Stream) : (if o ∈ sts ++ [st] then none else getV s.groups.opens o)
      = if o ∈ sts then none else getV s.groups.opens o := by
    by_cases ho : o = st
    · subst ho
      have : getV s.groups.opens o = none := hg
      simp [hst, this]
    · simp [ho]
  rw [hx]
  exact { h with
    groups := by
      rw [h.groups]
      refine congrArg (fun v => ({ s.groups with opens := v } : GroupTable)) (tables_ext _ _ fun o => ?_)
      rw [getV_mapStreams, getV_mapStreams]
      exact (hsame o).symm
    free := by rw [hopens]; exact h.free
    slots := by rw [hopens]; exact h.slots
    index := by rw [hopens]; exact h.index
    journal := by rw [hopens]; exact h.journal
    mgmt := by rw [hopens]; exact h.mgmt
    holds := fun o => by
      rw [h.holds o]
      by_cases ho : o = st
      · subst ho; simp [hg]
      · simp [ho]
    ports := fun o => by
      rw [h.ports o]
      by_cases ho : o = st
      · subst ho; simp [hst, State.placesDiscarded, hg]
      · simp [ho]
    released := by rw [hopens]; exact h.released }

/-- One more group is discarded, and its stream's held write declined (R82). -/
theorem discarding_discard {s : State} {sts : List Stream} {x : State × List Line} {st : Stream} {g : Group}
    (h : Discarding s sts x) (hst : st ∉ sts) (hg : s.openGroup? st = some g) :
    Discarding s (sts ++ [st]) (State.discardStream x st) := by
  have hopens : s.openGroupsOf (sts ++ [st]) = s.openGroupsOf sts ++ [(st, g)] := by rw [openGroupsOf_append, hg]; rfl
  have hopen : x.1.openGroup? st = some g := by
    have := hg
    unfold State.openGroup? at this ⊢
    rw [h.groups]
    simp [hst, this]
  have hholds : getV x.1.holds st = getV s.holds st := by rw [h.holds]; simp [hst]
  have hports : getV x.1.ports st = getV s.ports st := by rw [h.ports]; simp [hst]
  let u := x.1.discardGroup st g .management
  have hu : DiscardsGroup x.1 u st g := discardGroup_discards _ _ _ _
  obtain ⟨hgroups, hfree, hslots, hindex, hjournal⟩ := hu
  have hplace : u.heldPlace st = s.heldPlace st := heldPlace_congr hholds hports
  have hx : State.discardStream x st = (u.declineHeld .discarded st, x.2 ++ x.1.discardReleases g) := by
    simp only [State.discardStream, hopen]
    rfl
  have hall : u.groups = { s.groups with opens := mapStreams (fun o g => if o ∈ sts ++ [st] then none else g) s.groups.opens } := by
    rw [hgroups, h.groups]
    refine congrArg (fun v => ({ s.groups with opens := v } : GroupTable)) (tables_ext _ _ fun o => ?_)
    rw [getV_setV, getV_mapStreams, getV_mapStreams]
    by_cases ho : o = st <;> simp [ho]
  have hckpt : x.1.ckpt = s.ckpt := by rw [h.rest]
  rw [hx]
  exact {
    groups := by
      simp only [State.declineHeld_keeps]
      exact hall
    free := by
      simp only [State.declineHeld_keeps, hopens]
      rw [hfree, h.free]
      simp
    slots := fun id => by
      have hpool : State.slot (u.declineHeld .discarded st) id = u.slot id := by simp [State.slot]
      have hmem : id ∈ (s.openGroupsOf sts ++ [(st, g)]).flatMap (·.2.entries)
          ↔ id ∈ (s.openGroupsOf sts).flatMap (·.2.entries) ∨ id ∈ g.entries := by
        rw [List.flatMap_append, List.mem_append]
        simp only [List.flatMap_singleton]
      rw [hpool, hslots, h.slots, hopens]
      by_cases h1 : id ∈ g.entries
      · rw [if_pos h1, if_pos (hmem.2 (.inr h1))]
      · rw [if_neg h1]
        exact if_congr ⟨fun h' => hmem.2 (.inl h'), fun h' => (hmem.1 h').resolve_right h1⟩ rfl rfl
    index := by
      simp only [State.declineHeld_keeps]
      rw [hindex, h.index, hopens]
      simp [indexDiscardAll]
    journal := by
      simp only [State.declineHeld_keeps]
      rw [hjournal, h.journal, hopens, hckpt]
      simp only [List.filter_filter, List.map_map, List.all_append, List.any_append]
      congr 1
      · congr 1; funext q; simp [Bool.and_comm]
      · congr 1; funext r
        simp only [Function.comp_apply, List.any_cons, List.any_nil, Bool.or_false]
        generalize (s.openGroupsOf sts).any (fun x => decide (r.group = x.2.ref)) = dropped
        by_cases hr : r.group = g.ref <;> cases dropped <;> simp [hr]
      · simp
    mgmt := by
      rw [declineHeld_mgmt, hplace, hopens, List.foldl_append, ← h.mgmt]
      simp only [List.foldl_cons, List.foldl_nil]
      cases s.heldPlace st <;> rfl
    holds := fun o => by
      rw [declineHeld_holds, getV_setV]
      by_cases ho : o = st
      · subst ho; simp [hg]
      · simp only [ho, if_false, List.mem_append, List.mem_singleton, or_false]
        exact h.holds o
    ports := fun o => by
      rw [declineHeld_ports, hplace]
      have hother (ho : o ≠ st) : getV u.ports o
          = if o ∈ sts ++ [st] then { (getV s.ports o) with places := s.placesDiscarded o } else getV s.ports o := by
        simp only [ho, List.mem_append, List.mem_singleton, or_false]
        exact h.ports o
      have hself : getV u.ports st = getV s.ports st := hports
      cases hp : s.heldPlace st with
      | none =>
        by_cases ho : o = st
        · subst ho
          simp only [Option.elim, hself, State.placesDiscarded, hg, hp]
          simp
        · exact hother ho
      | some p =>
        simp only [Option.elim, getV_setV]
        by_cases ho : o = st
        · subst ho
          simp [hself, State.placesDiscarded, hg, hp]
        · rw [if_neg ho]
          exact hother ho
    released := fun l => by
      rw [hopens, mem_releasedBy_discardAll, List.mem_append, h.released, State.discardReleases, h.index]
    rest := by
      have hrest := h.rest
      have hkeep : x.1.run = s.run ∧ x.1.abase = s.abase ∧ x.1.now = s.now ∧ x.1.profile = s.profile ∧ x.1.apply = s.apply
          ∧ x.1.ckpt = s.ckpt ∧ x.1.mem = s.mem ∧ x.1.service = s.service ∧ x.1.engine = s.engine ∧ x.1.out = s.out
          ∧ x.1.freeCount = s.freeCount ∧ x.1.pending = s.pending := by
        rw [hrest]
        exact ⟨rfl, rfl, rfl, rfl, rfl, rfl, rfl, rfl, rfl, rfl, rfl, rfl⟩
      apply State.ext_fields <;> simp [u, hkeep] }

/-- The loop of DISCARD_OPEN over streams that are all different. -/
theorem discarding_streams (s : State) (sts : List Stream) (hn : sts.Nodup) :
    Discarding s sts (sts.foldl State.discardStream (s, [])) := by
  induction sts using List.reverseRecOn with
  | nil => exact discarding_nil s
  | append_singleton sts st ih =>
    obtain ⟨hsts, -, hst⟩ := List.nodup_append.1 hn
    have hst : st ∉ sts := fun h => hst st h st (List.mem_singleton_self st) rfl
    rw [List.foldl_append]
    cases hg : s.openGroup? st with
    | none => exact discarding_pass (ih hsts) hst hg
    | some g => exact discarding_discard (ih hsts) hst hg

end Sys2Proof.Machine
end

section
/-! DISCARD_OPEN (O43). -/

namespace Sys2Proof.Machine

set_option Elab.async false

/-! ### DISCARD_OPEN (R168) -/

/-- What is owed may be said of another state with the same holds, in other words for the writes that are held. -/
theorem Owes.imp {s s' t : State} {p q : Stream → HeldWrite → Prop} (h : Owes s t p) (hh : s'.holds = s.holds)
    (hpq : ∀ o w, getV s'.holds o = some w → (p o w ↔ q o w)) : Owes s' t q := by
  intro o
  rw [hh] at hpq ⊢
  obtain ⟨hnone, hsome⟩ := h o
  refine ⟨hnone, fun w hw => ?_⟩
  obtain ⟨howed, hnot⟩ := hsome w hw
  exact ⟨fun h' => howed ((hpq o w hw).2 h'), fun h' => hnot fun h'' => h' ((hpq o w hw).1 h'')⟩

theorem openCount_eq_zero (s : State) : s.openCount = 0 ↔ s.openGroups = [] := by
  unfold State.openCount State.openGroups State.openGroup?
  rw [List.countP_eq_zero, List.filterMap_eq_nil_iff, toList_eight]
  simp only [List.mem_map, forall_exists_index, and_imp, forall_apply_eq_imp_iff₂, Option.map_eq_none_iff]
  exact forall₂_congr fun st _ => by cases getV s.groups.opens st <;> simp

theorem exec_discardOpen {s : State} (hr : s.run = .running) (hn : s.mgmt.running = none) :
    exec .discardOpen s = .next s.clearOut.discardOpen.finish := by
  simp only [exec, execDiscardOpen, happen_next hr rfl, State.offer]
  rw [if_neg (by simp [hn])]

/-- A command that is answered at once and changes nothing else. -/
theorem answerAtOnce_quiet {s t : State} (code : Byte) (r : Result) (hlive : Live s)
    (ht : t = (s.clearOut.answerAtOnce code r).finish) :
    t.out = Outputs.none ∧ Becomes t { s with mgmt := s.mgmt.answered code r } := by
  have hquiet : NoReadyFront (s.clearOut.answerAtOnce code r) := noReadyFront_of_ports hlive.2 rfl
  subst ht
  exact ⟨out_finish_quiet hquiet, (becomes_finish_quiet hquiet).trans rfl⟩

/-- After the loop over all streams. -/
theorem discarding_all_opens {s : State} {x : State × List Line} (h : Discarding s allStreams x) :
    x.1.groups = { s.groups with opens := Vector.replicate 8 none } := by
  rw [h.groups]
  refine congrArg (fun v => ({ s.groups with opens := v } : GroupTable)) (tables_ext _ _ fun o => ?_)
  rw [getV_mapStreams, getV_replicate, if_pos (Sys2Proof.mem_allStreams o)]

theorem discarding_all_holds {s : State} {x : State × List Line} (h : Discarding s allStreams x) :
    x.1.holds = s.holdsDiscarded := by
  refine tables_ext _ _ fun o => ?_
  rw [h.holds o, State.holdsDiscarded, getV_mapStreams]
  simp only [Sys2Proof.mem_allStreams, true_and]

theorem discarding_all_places {s : State} {x : State × List Line} (h : Discarding s allStreams x) (o : Stream) :
    (getV x.1.ports o).places = s.placesDiscarded o ∧ (getV x.1.ports o).nextIndex = (getV s.ports o).nextIndex := by
  rw [h.ports o, if_pos (Sys2Proof.mem_allStreams o)]
  exact ⟨rfl, rfl⟩

/-- The lines of a write that is still held are those it had. -/
theorem discarding_heldLines {s : State} {x : State × List Line} (h : Discarding s allStreams x) {o : Stream} {w : HeldWrite}
    (hw : getV s.holdsDiscarded o = some w) : x.1.heldLines o w = s.heldLines o w := by
  have hnone : s.openGroup? o = none := by
    rw [State.holdsDiscarded, getV_mapStreams] at hw
    split at hw
    · cases hw
    · rename_i hnone; simpa using hnone
  have hplaces : (getV x.1.ports o).places = (getV s.ports o).places := by
    rw [(discarding_all_places h o).1, State.placesDiscarded, hnone]
  unfold State.heldLines State.place?
  rw [hplaces]

/-- The discards of DISCARD_OPEN with what follows them and the answer. -/
theorem discardsGroups_of_discarding {s t : State} {x : State × List Line} (h : Discarding s allStreams x)
    (hne : s.openGroups ≠ []) (hg : t.groups = x.1.groups) (hp : t.pool = x.1.pool) (hi : t.index = x.1.index)
    (hj : t.journal = x.1.journal) : DiscardsGroups s t s.openGroups := by
  refine ⟨hg.trans (discarding_all_opens h), by rw [hp]; exact h.free, fun id => ?_, hi.trans h.index, ?_⟩
  · rw [State.slot, hp]
    exact h.slots id
  · have hsome : s.openGroupsOf allStreams ≠ [] := hne
    rw [hj, h.journal, hg, if_neg hsome]
    rfl

/-- Settles O43: DISCARD_OPEN in each state. -/
theorem discardOpenDiscardsEveryOpenGroup : Obligations.DiscardOpenDiscardsEveryOpenGroup := by
  unfold Obligations.DiscardOpenDiscardsEveryOpenGroup
  intro s hlive hidle
  have hexec := exec_discardOpen hlive.1 hidle
  refine ⟨fun hstate => ?_, fun hstate => ⟨fun hempty => ?_, fun hne => ?_⟩⟩
  · have hwrong : s.clearOut.discardOpen = s.clearOut.answerAtOnce 3 .wrongState := by
      rcases hstate with h | h | h <;> simp [State.discardOpen, h, Command.code]
    exact ⟨_, hexec, answerAtOnce_quiet 3 .wrongState hlive (by rw [hwrong])⟩
  · have hdone : s.clearOut.discardOpen = s.clearOut.answerAtOnce 3 .done := by
      have hzero : s.clearOut.openCount = 0 := (openCount_eq_zero s).2 hempty
      rcases hstate with h | h | h <;> simp [State.discardOpen, h, Command.code, hzero]
    exact ⟨_, hexec, answerAtOnce_quiet 3 .done hlive (by rw [hdone])⟩
  · have hloop : Discarding s.clearOut allStreams (allStreams.foldl State.discardStream (s.clearOut, [])) :=
      discarding_streams s.clearOut allStreams (by decide)
    have hopen : s.clearOut.discardOpen = (State.afterDiscard (allStreams.foldl State.discardStream (s.clearOut, [])).1
        (allStreams.foldl State.discardStream (s.clearOut, [])).2).answerAtOnce 3 .done := by
      have hsome : s.clearOut.openCount ≠ 0 := fun h => hne ((openCount_eq_zero s).1 h)
      rcases hstate with h | h | h <;> simp [State.discardOpen, h, Command.code, hsome]
    rw [hopen] at hexec
    refine ⟨_, hexec, ?_⟩
    generalize allStreams.foldl State.discardStream (s.clearOut, []) = x at hloop
    obtain ⟨u, released⟩ := x
    have hrest := hloop.rest
    have hkeeps : u.run = s.run ∧ u.abase = s.abase ∧ u.now = s.now ∧ u.profile = s.profile ∧ u.apply = s.apply
        ∧ u.ckpt = s.ckpt ∧ u.mem = s.mem ∧ u.service = s.service ∧ u.engine = s.engine ∧ u.out = Outputs.none
        ∧ u.pending = s.pending := by
      dsimp only at hrest
      rw [hrest]
      exact ⟨rfl, rfl, rfl, rfl, rfl, rfl, rfl, rfl, rfl, rfl, rfl⟩
    refine ⟨?_, fun st => ?_, ?_, ?_, ?_, ?_, ?_⟩
    · exact discardsGroups_of_discarding (s := s.clearOut) hloop hne (by simp) (by simp) (by simp) (by simp)
    · obtain ⟨hplaces, hindex⟩ := discarding_all_places hloop st
      rw [finish_places, finish_nextIndex]
      simp only [State.answerAtOnce_keeps, State.afterDiscard_keeps]
      exact ⟨by rw [hplaces]; rfl, hindex⟩
    · rw [finish_out]
      simp only [State.answerAtOnce_keeps, State.afterDiscard_keeps, hkeeps, (discarding_all_places hloop _).1]
      rfl
    · have hmgmt : (u.afterDiscard released).mgmt = u.mgmt := by simp
      rw [finish_mgmt]
      change (u.afterDiscard released).mgmt.answered 3 .done = _
      rw [hmgmt, hloop.mgmt]
      rfl
    · refine Owes.congr ((owes_afterDiscard u released).imp (discarding_all_holds hloop).symm fun o w hw => ?_) (by simp)
      rw [discarding_heldLines hloop hw]
      exact or_congr_right (and_congr_right fun _ => exists_congr fun l => and_congr_right fun _ => hloop.released l)
    · have hckpt : u.ckpt = s.ckpt := by simp [hkeeps]
      have hwants := (wantsAfter_afterDiscard u released).of_ckpt (s' := s) hckpt.symm
      rw [hckpt] at hwants
      exact hwants.congr (by simp) (by simp) (by simp) (by simp)
    · refine (becomes_finish _).trans ?_
      apply becomes_of_fields <;> simp [hkeeps]

end Sys2Proof.Machine
end

section
/-! SUPPORT. Ends of commands and the steps of CLEAR_FAULT. -/

namespace Sys2Proof.Machine

set_option Elab.async false

/-! ### Ends of commands (R177) -/

theorem endIf_eq (s : State) (c : Command) (r : Result) : s.endIf c r = { s with mgmt := s.mgmt.endsIf c r } := by
  unfold State.endIf ManagementPort.endsIf
  split
  · rename_i h
    simp only [State.endCommand, State.endCommandWith, h]
    rfl
  · rfl

theorem endsIf_running {m : ManagementPort} {c : Command} (r : Result) (h : m.running = some c) :
    m.endsIf c r = m.ended c r := if_pos h

/-! ### The end of an event, for an effect that is known with its frame -/

theorem Becomes.refl (s : State) : Becomes s s := rfl

/-- The fields that `Becomes` makes equal. -/
theorem Becomes.fields {t u : State} (h : Becomes t u) : t.run = u.run ∧ t.abase = u.abase ∧ t.now = u.now ∧ t.ports = u.ports
    ∧ t.profile = u.profile ∧ t.groups = u.groups ∧ t.pool = u.pool ∧ t.index = u.index ∧ t.holds = u.holds
    ∧ t.journal = u.journal ∧ t.apply = u.apply ∧ t.ckpt = u.ckpt ∧ t.mem = u.mem ∧ t.engine = u.engine ∧ t.mgmt = u.mgmt
    ∧ t.pending = u.pending := by
  unfold Becomes at h
  rw [h]
  exact ⟨rfl, rfl, rfl, rfl, rfl, rfl, rfl, rfl, rfl, rfl, rfl, rfl, rfl, rfl, rfl, rfl⟩

theorem Becomes.withPorts {t u : State} (h : Becomes t u) (ports : Vector StreamPort 8) :
    Becomes { t with ports := ports } { u with ports := ports } := by
  unfold Becomes at h ⊢
  rw [h]

/-- The end of an event after an effect: the ports are those it leaves. -/
theorem Becomes.finish {v u : State} (h : Becomes v u) : Becomes v.finish { u with ports := v.finish.ports } :=
  (becomes_finish v).trans (h.withPorts _)

theorem withPorts_finish {v : State} (h : NoReadyFront v) : { v with ports := v.finish.ports } = v := by
  rw [(finish_quiet h).1]

/-! ### The steps of CLEAR_FAULT (R165, R166) -/

theorem clearTarget_eq (s : State) (answered : Option CheckpointRequest) : s.clearTarget answered = s.clearEnters answered := by
  simp only [State.clearTarget, State.clearEnters, Bool.or_eq_true, decide_eq_true_eq]

/-- CLEAR_FAULT ends DONE without an answer: the records, then the two tests. -/
theorem finishClear_none {s : State} (hrun : s.mgmt.running = some .clearFault) :
    s.finishClear none = State.quiesceTest (State.distanceTrigger { s with
      engine := { s.engine with
        state := s.clearEnters none, firstCause := none, causes := [], returnState := none, quiescePending := false
        activation := none, clear := none }
      mgmt := s.clearedMgmt none }) := by
  have hended (m : ManagementPort) (h : m.running = some .clearFault) : m.endsIf .clearFault .done = m.ended .clearFault .done :=
    endsIf_running _ h
  simp only [State.finishClear, clearTarget_eq, State.clearedMgmt, reduceCtorEq, if_false]
  split
  · rw [endIf_eq]
    simp only [State.pushEvent]
    rw [hended _ (by simp [hrun])]
  · rw [endIf_eq]
    simp only [State.pushEvent]
    rw [hended _ (by simp [hrun])]

theorem clearEnds_finishClear {s : State} (hrun : s.mgmt.running = some .clearFault) : ClearEnds s (s.finishClear none) none := by
  rw [finishClear_none hrun]
  refine ⟨(wantsAfter_tests _).of_ckpt rfl, ?_⟩
  apply becomes_of_fields <;> simp

theorem anchorStep_begins {s : State} (hrun : s.mgmt.running = some .clearFault) : AnchorStepBegins s s.anchorStep := by
  unfold State.anchorStep
  constructor
  · intro hcause hretained
    rw [if_pos (by simp [hcause, hretained])]
    exact Becomes.refl _
  · intro h
    rw [if_neg (by rcases h with h | h <;> simp [h])]
    exact clearEnds_finishClear (s := s.dropCause .checkpointWrite) hrun

theorem applyStep_begins {s : State} (hrun : s.mgmt.running = some .clearFault) : ApplyStepBegins s s.applyStep := by
  refine ⟨fun hcause => ?_, fun hcause hnone => ?_, fun a hcause ha => ⟨fun hzero => ?_, fun hsome => ?_⟩⟩
  · have hstep : s.applyStep = s.anchorStep := by simp [State.applyStep, hcause]
    rw [hstep]
    exact anchorStep_begins hrun
  · have hstep : s.applyStep = (s.dropCause .applyWrite).anchorStep := by simp [State.applyStep, hcause, hnone]
    rw [hstep]
    exact anchorStep_begins (s := s.dropCause .applyWrite) hrun
  · have hstep : s.applyStep = s.startAttempt a := by simp [State.applyStep, hcause, ha, hzero]
    rw [hstep]
    exact Becomes.refl _
  · have hstep : s.applyStep = { s with engine := { s.engine with clear := some (.apply false) } } := by
      simp [State.applyStep, hcause, ha, hsome]
    rw [hstep]
    exact Becomes.refl _

theorem ClearEnds.finish {u v : State} {answered : Option CheckpointRequest} (h : ClearEnds u v answered) :
    ClearEnds { u with ports := v.finish.ports } v.finish answered := by
  obtain ⟨hwants, hbecomes⟩ := h
  refine ⟨(hwants.of_ckpt rfl).congr (by simp) (by simp) (by simp) (by simp), ?_⟩
  have hckpt : v.finish.ckpt = v.ckpt := by simp
  rw [hckpt]
  exact hbecomes.finish

theorem AnchorStepBegins.finish {u v : State} (h : AnchorStepBegins u v) :
    AnchorStepBegins { u with ports := v.finish.ports } v.finish :=
  ⟨fun hcause hretained => (h.1 hcause hretained).finish, fun h' => (h.2 h').finish⟩

theorem ApplyStepBegins.finish {u v : State} (h : ApplyStepBegins u v) :
    ApplyStepBegins { u with ports := v.finish.ports } v.finish :=
  ⟨fun hcause => (h.1 hcause).finish, fun hcause hnone => (h.2.1 hcause hnone).finish, fun a hcause ha =>
    ⟨fun hzero => ((h.2.2 a hcause ha).1 hzero).finish, fun hsome => ((h.2.2 a hcause ha).2 hsome).finish⟩⟩

/-- A state that becomes another begins the same steps. -/
theorem ClearEnds.becomes {u v t : State} {answered : Option CheckpointRequest} (h : ClearEnds u v answered) (ht : Becomes t v) :
    ClearEnds u t answered := by
  obtain ⟨-, -, -, -, -, hgroups, -, -, -, hjournal, -, hckpt, -, hengine, -, -⟩ := ht.fields
  refine ⟨h.1.congr hckpt hengine hgroups hjournal, ht.trans ?_⟩
  rw [hckpt]
  exact h.2

theorem AnchorStepBegins.becomes {u v t : State} (h : AnchorStepBegins u v) (ht : Becomes t v) : AnchorStepBegins u t :=
  ⟨fun hcause hretained => ht.trans (h.1 hcause hretained), fun h' => (h.2 h').becomes ht⟩

theorem ApplyStepBegins.becomes {u v t : State} (h : ApplyStepBegins u v) (ht : Becomes t v) : ApplyStepBegins u t :=
  ⟨fun hcause => (h.1 hcause).becomes ht, fun hcause hnone => (h.2.1 hcause hnone).becomes ht, fun a hcause ha =>
    ⟨fun hzero => ht.trans ((h.2.2 a hcause ha).1 hzero), fun hsome => ht.trans ((h.2.2 a hcause ha).2 hsome)⟩⟩

end Sys2Proof.Machine
end

section
/-! The last home write retires the group (O26). -/

namespace Sys2Proof.Machine

set_option Elab.async false

/-! ### The group retires (R125) -/

/-- A retire moves the retired-through number and then evaluates the tests. -/
theorem WantsAfter.retired {s s' t : State} {n : Word} (h : WantsAfter s' t n)
    (hc : s'.ckpt = { s.ckpt with retiredThrough := n }) : WantsAfter s t n := by
  unfold WantsAfter quiesces at h ⊢
  rw [hc] at h
  exact h

theorem distanceTrigger_oweRetire (s : State) : s.distanceTrigger.oweRetire = s.oweRetire.distanceTrigger := by
  have hholds : s.oweRetire.distanceHolds = s.distanceHolds := distanceHolds_congr rfl rfl
  unfold State.distanceTrigger
  rw [hholds]
  split <;> rfl

/-- What a retire is before its two tests. -/
def State.retireBeforeTests (s : State) (g : Group) (n : Word) : State :=
  (State.recomputeLiveTail { s with
    groups := { s.groups with pipeline := s.groups.pipeline.filter fun x => x.ref ≠ g.ref }
    pool := s.pool.release g.entries
    index := indexUpdate (fun e => e.retire g.entries) s.index
    apply := none
    ckpt := { s.ckpt with retiredThrough := n } }).oweRetire

theorem retire_eq {s : State} {g : Group} {n : Word} (hn : g.commitNumber = some n) :
    s.retire g = (s.retireBeforeTests g n).distanceTrigger.quiesceTest := by
  simp only [State.retire, State.retireBeforeTests, distanceTrigger_oweRetire, hn, Option.getD_some]

/-- The retire of a group, from the state in which its last home write has left the outstanding list. -/
theorem retires_retire {s v : State} {g : Group} {n : Word} {rest : List MemEntry} {a : ApplyRecord}
    (hn : g.commitNumber = some n)
    (hv : v = { s.clearOut with mem := { s.mem with outstanding := rest }, apply := some a }) :
    Retires s (v.retire g) g n rest ∧ (v.retire g).out = Outputs.none ∧ (v.retire g).ports = s.ports := by
  subst hv
  rw [retire_eq hn]
  refine ⟨⟨?_, fun id => ?_, ?_, ?_, ?_⟩, by simp [State.retireBeforeTests]; rfl, by simp [State.retireBeforeTests]⟩
  · simp [State.retireBeforeTests, SlotPool.release]
  · simp only [State.slot, State.quiesceTest_keeps, State.distanceTrigger_keeps, State.retireBeforeTests,
      State.oweRetire_keeps, State.recomputeLiveTail_keeps]
    exact release_slot s.pool g.entries id
  · exact (wantsAfter_tests (State.retireBeforeTests _ g n)).retired rfl
  · refine owes_of_map (f := fun _ w => decide (w.kind = .space) || decide (w.kind = .pipeline)) (fun o => ?_) fun o w => by simp
    simp only [State.quiesceTest_keeps, State.distanceTrigger_keeps, State.retireBeforeTests, State.oweRetire, getV_owe]
    rfl
  · apply becomes_of_fields <;> simp [State.retireBeforeTests]
    rfl

/-- The last acknowledgement retires the group, whatever CLEAR_FAULT does next. -/
theorem homeWriteOk_last {s : State} {a : ApplyRecord} {g : Group} (ha : s.apply = some a) (hstop : a.stopped = false)
    (hg : s.findGroup a.group = some g) (hlast : a.acked + 1 = g.entries.length) :
    s.homeWriteOk = (State.retire { s with apply := some { a with outstanding := a.outstanding - 1, acked := a.acked + 1 } }
      g).continueClear := by
  have hlength (b : ApplyRecord) : State.applyLength { s with apply := some b } a = g.entries.length := by
    have : State.findGroup { s with apply := some b } a.group = some g := hg
    simp only [State.applyLength, this]
  have hgroup (b : ApplyRecord) : State.groupOf { s with apply := some b } a.group = g := by
    have : State.findGroup { s with apply := some b } a.group = some g := hg
    simp only [State.groupOf, this, Option.getD_some]
  simp only [State.homeWriteOk, ha, hstop, hlength, hgroup, hlast]
  simp

/-- CLEAR_FAULT goes on only in its apply step and in a journal step that has nothing left (R165). -/
theorem continueClear_waits {s : State} (h : s.engine.clear = none ∨ s.engine.clear = some .anchor
    ∨ (∃ own, s.engine.clear = some (.journal own)) ∧ s.journal.failed ≠ []) : s.continueClear = s := by
  rcases h with h | h | ⟨⟨own, h⟩, hf⟩
  · simp [State.continueClear, h]
  · simp [State.continueClear, h]
  · simp [State.continueClear, h, State.journalClean, hf]

theorem Retires.becomes {s v t : State} {g : Group} {n : Word} {rest : List MemEntry} (h : Retires s v g n rest)
    (ht : Becomes t v) : Retires s t g n rest := by
  obtain ⟨hfree, hslots, hwants, howes, hbecomes⟩ := h
  obtain ⟨-, -, -, -, -, hgroups, hpool, -, hholds, hjournal, -, hckpt, -, hengine, -, -⟩ := ht.fields
  refine ⟨by rw [hpool]; exact hfree, fun id => ?_, hwants.congr hckpt hengine hgroups hjournal, howes.congr hholds, ht.trans ?_⟩
  · rw [State.slot, hpool]
    exact hslots id
  · rw [hpool, hholds, hckpt, hgroups]
    exact hbecomes

/-- The acknowledgement of a home write taken by the clean-up, before the group retires. -/
def State.homeAcked (s : State) (rest : List MemEntry) (a : ApplyRecord) : State :=
  { s.clearOut with
    mem := { s.mem with outstanding := rest }
    apply := some { a with outstanding := a.outstanding - 1, acked := a.acked + 1 } }

/-- Settles O26: the last home write acknowledged, outside and inside the apply step of CLEAR_FAULT. -/
theorem lastHomeWriteRetiresTheGroup : Obligations.LastHomeWriteRetiresTheGroup := by
  unfold Obligations.LastHomeWriteRetiresTheGroup
  intro s e rest a g n hlive haw hpurpose ha hstop hg hlast hn
  obtain ⟨hretires, hout, hports⟩ := retires_retire (s := s) (v := s.homeAcked rest a) (rest := rest) hn rfl
  have hok : State.homeWriteOk { s.clearOut with mem := { s.mem with outstanding := rest } }
      = ((s.homeAcked rest a).retire g).continueClear := homeWriteOk_last ha hstop hg hlast
  have hmgmt : ((s.homeAcked rest a).retire g).mgmt = s.mgmt := by simp [State.homeAcked]
  have hengine : ((s.homeAcked rest a).retire g).engine = s.engine := by simp [State.homeAcked]
  have hfailed : ((s.homeAcked rest a).retire g).journal.failed = s.journal.failed := by
    rw [retire_eq hn]
    simp [State.retireBeforeTests, State.homeAcked, State.recomputeLiveTail]
  have happly : ((s.homeAcked rest a).retire g).apply = none := by
    rw [retire_eq hn]
    simp [State.retireBeforeTests]
  have hserves : e.purpose.isHomeWrite = true := by rw [hpurpose]; rfl
  generalize (s.homeAcked rest a).retire g = v at *
  refine ⟨fun hclear => ?_, fun started hclear hrun => ?_⟩
  · have hstay : v.continueClear = v := continueClear_waits (by rw [hengine, hfailed]; exact hclear)
    refine acknowledge_leads (f := State.homeWriteOk) rfl hlive haw hserves rfl (hok.trans hstay) hports fun t ht htout => ?_
    exact ⟨htout.trans hout, hretires.becomes ht⟩
  · have hstep : v.continueClear = (v.dropCause .applyWrite).anchorStep := by
      simp only [State.continueClear, hengine, hclear, happly]
    refine acknowledge_leads (f := State.homeWriteOk) rfl hlive haw hserves rfl (hok.trans hstep) (by simp [hports])
      fun t ht htout => ⟨by simpa [hout] using htout, v, hretires, ?_⟩
    exact (anchorStep_begins (s := v.dropCause .applyWrite) (by simp [hmgmt, hrun])).becomes ht

end Sys2Proof.Machine
end

section
/-! The failed list is rewritten (O18). -/

namespace Sys2Proof.Machine

set_option Elab.async false

/-! ### A group becomes SEALED (R91) -/

theorem findGroup_ref {s : State} {ref : Nat} {g : Group} (h : s.findGroup ref = some g) : g.ref = ref := by
  simpa using List.find?_some h

/-- The lines of a held write depend on its request, which no release changes. -/
theorem heldLines_release {s t : State} {ref : Nat}
    (h : t.ports = mapStreams (fun _ p => { p with places := p.places.map (Place.release ref) }) s.ports) (st : Stream)
    (w : HeldWrite) : t.heldLines st w = s.heldLines st w := by
  have hindex : (fun q : Place => decide (q.index = w.place)) ∘ Place.release ref = fun q => decide (q.index = w.place) := by
    funext q
    simp only [Function.comp_apply, Place.release]
    split <;> rfl
  have hplace : t.place? st w.place = (s.place? st w.place).map (Place.release ref) := by
    simp only [State.place?, h, getV_mapStreams, List.find?_map, hindex]
  unfold State.heldLines
  rw [hplace]
  cases s.place? st w.place with
  | none => rfl
  | some p =>
    simp only [Option.map_some, Place.release]
    split <;> rfl

/-- The parts of the state that the SEALED event changes. -/
theorem sealedEvent_eq (s : State) {ref : Nat} {g : Group} (hg : s.findGroup ref = some g) :
    s.sealedEvent ref = { s with
      groups := s.groups.update ref fun x => { x with state := .sealed, commitResponse := none }
      index := s.index.map fun e => e.becomeSealed g.entries
      ports := mapStreams (fun _ p => { p with places := p.places.map (Place.release ref) }) s.ports
      mgmt := { s.mgmt with commits := s.mgmt.commits + 1 }
      holds := (s.sealedEvent ref).holds } := by
  simp only [State.sealedEvent, hg]
  rfl

/-- The SEALED event in an event that ends in `t` with its groups, index and holds. -/
theorem sealedEvent_frame {u t : State} {g : Group} (hg : u.findGroup g.ref = some g)
    (hgroups : t.groups = (u.sealedEvent g.ref).groups) (hindex : t.index = (u.sealedEvent g.ref).index)
    (hholds : t.holds = (u.sealedEvent g.ref).holds) : { u.sealedEvent g.ref with ports := t.ports } = { u with
      groups := t.groups, ports := t.ports, index := t.index, holds := t.holds
      mgmt := { u.mgmt with commits := u.mgmt.commits + 1 } } := by
  have hmgmt : (u.sealedEvent g.ref).mgmt = { u.mgmt with commits := u.mgmt.commits + 1 } := by rw [sealedEvent_eq u hg]
  apply State.ext_fields <;> simp [hgroups, hindex, hholds, hmgmt]

theorem owes_sealedEvent (s : State) {ref : Nat} {g : Group} (hg : s.findGroup ref = some g) :
    Owes s (s.sealedEvent ref) fun o w => w.kind = .conflict
      ∧ ∃ l ∈ s.heldLines o w, l ∈ releasedBy (fun e => e.becomeSealed g.entries) s.index := by
  refine owes_of_map (f := fun o w => decide (w.kind = .conflict)
    && (s.heldLines o w).any (releasedBy (fun e => e.becomeSealed g.entries) s.index).contains) (fun o => ?_) fun o w => by simp
  simp only [State.sealedEvent, hg, State.oweConflict, getV_owe]
  congr 1
  funext w
  rw [heldLines_release (s := s) (ref := ref) rfl]

/-- The end of an event in which the group of a COMMIT has become SEALED. -/
theorem sealsGroup_finish {s u v : State} {g : Group} (hg : u.findGroup g.ref = some g)
    (hgroups : u.groups = s.groups) (hports : u.ports = s.ports) (hindex : u.index = s.index) (hholds : u.holds = s.holds)
    (hvgroups : v.groups = (u.sealedEvent g.ref).groups) (hvports : v.ports = (u.sealedEvent g.ref).ports)
    (hvindex : v.index = (u.sealedEvent g.ref).index) (hvholds : v.holds = (u.sealedEvent g.ref).holds)
    (hvout : v.out = Outputs.none) : SealsGroup s v.finish g := by
  have heq := sealedEvent_eq u hg
  obtain ⟨-, -, -, -, -, hgroups', -, hindex', hholds', -⟩ := (becomes_finish v).fields
  have hplaces : ∀ o, getV v.ports o
      = { (getV s.ports o) with places := (getV s.ports o).places.map (Place.release g.ref) } := fun o => by
    rw [hvports, heq, getV_mapStreams, hports]
  have hlines : ∀ o w, u.heldLines o w = s.heldLines o w := fun o w => by
    unfold State.heldLines State.place?
    rw [hports]
  refine ⟨?_, fun o => ⟨?_, ?_⟩, ?_, ?_, ?_⟩
  · rw [hgroups', hvgroups, heq, hgroups]
  · rw [finish_places, hplaces]
  · rw [finish_nextIndex, hplaces]
  · rw [finish_out, hvout]
    simp only [hplaces]
    rfl
  · rw [hindex', hvindex, heq, hindex]
  · have howes := owes_sealedEvent u hg
    unfold Owes at howes ⊢
    simp only [hlines, hindex, hholds] at howes
    rw [hholds', hvholds]
    exact howes

/-- The places that waited for the group have their answer at the end of the event. -/
theorem sealed_answers {u v : State} {g : Group} (hg : u.findGroup g.ref = some g)
    (hvports : v.ports = (u.sealedEvent g.ref).ports) (st : Stream) (p : Place) (hp : p ∈ (getV u.ports st).places)
    (hphase : p.phase = .withheld g.ref) : Answered v.finish st p (.ok []) := by
  refine answered_finish (q := p.release g.ref) ?_ ?_ ?_ ?_
  · rw [hvports, sealedEvent_eq u hg, getV_mapStreams]
    exact List.mem_map.2 ⟨p, hp, rfl⟩
  all_goals simp [Place.release, hphase]

/-! ### The failed list (R112) -/

/-- Where a CLEAR_FAULT that is in its journal step, or none, goes after an acknowledgement (R165). -/
theorem continueClear_journal {u : State} (h : u.engine.clear = none
      ∨ u.engine.clear = some (.journal false) ∧ u.mgmt.running = some .clearFault) :
    (¬ (u.engine.clear = some (.journal false) ∧ u.journal.failed = [] ∧ u.journal.outstanding = []) → u.continueClear = u)
    ∧ (u.engine.clear = some (.journal false) ∧ u.journal.failed = [] ∧ u.journal.outstanding = [] →
      ApplyStepBegins { u with engine := u.engine.without .journalWrite } u.continueClear) := by
  rcases h with h | ⟨h, hrun⟩
  · exact ⟨fun _ => by simp [State.continueClear, h], fun hc => by simp [h] at hc⟩
  · constructor
    · intro hends
      have hclean : u.journalClean = false := by
        simp only [State.journalClean, Bool.and_eq_false_iff, List.isEmpty_eq_false_iff]
        by_contra hcon
        push Not at hcon
        exact hends ⟨h, hcon⟩
      simp [State.continueClear, h, hclean]
    · rintro ⟨-, hfailed, hout⟩
      have hstep : u.continueClear = (u.dropCause .journalWrite).applyStep := by
        simp [State.continueClear, h, State.journalClean, hfailed, hout]
      rw [hstep]
      exact applyStep_begins (s := u.dropCause .journalWrite) hrun

/-- The same state, said in two ways, begins the same step. -/
theorem ApplyStepBegins.of_frame {w u t : State}
    (h : ApplyStepBegins { w with engine := w.engine.without .journalWrite, ports := t.ports } t)
    (hw : { w with ports := t.ports, out := u.out } = u) : ApplyStepBegins { u with engine := u.engine.without .journalWrite } t := by
  have happly : ApplyStepBegins { w with engine := w.engine.without .journalWrite, ports := t.ports, out := u.out } t := h
  rw [← hw]
  exact happly

/-- A rewrite has been acknowledged OK: its record has left the failed list and is counted, and the CLEAR_FAULT that runs, if
any, has no rewrite outstanding. -/
def State.rewritten (s : State) (rest : List MemEntry) (more : List IssuedRecord) (clear : Option ClearStep) : State :=
  { s with
    journal := { s.journal with failed := more }
    mem := { s.mem with outstanding := rest }
    mgmt := { s.mgmt with records := s.mgmt.records + 1 }
    engine := { s.engine with clear := clear } }

/-- What the acknowledgement of a rewrite does, with the flag of the CLEAR_FAULT that issued it taken back. -/
theorem rewriteDone_ok {s : State} {r : IssuedRecord} {more : List IssuedRecord} {rest : List MemEntry} {clear : Option ClearStep}
    (hfailed : s.journal.failed = r :: more)
    (hclear : s.engine.clear = some (.journal true) ∧ clear = some (.journal false)
      ∨ s.engine.clear ≠ some (.journal true) ∧ clear = s.engine.clear) :
    State.rewriteDone { s.clearOut with mem := { s.mem with outstanding := rest } } .ok
      = (if r.kind = .commit then (s.clearOut.rewritten rest more clear).sealedEvent r.group
          else s.clearOut.rewritten rest more clear).continueClear := by
  rcases hclear with ⟨howns, rfl⟩ | ⟨howns, rfl⟩
  · simp [State.rewriteDone, hfailed, State.ownsRewrite, howns, State.recordDurable, State.rewritten]
  · simp [State.rewriteDone, hfailed, State.ownsRewrite, howns, State.recordDurable, State.rewritten]

theorem rewriteAcknowledgement_next {s v : State} {e : MemEntry} {rest : List MemEntry} {status : MemStatus} (hlive : Live s)
    (haw : Awaits s e rest) (hpurpose : e.purpose = .rewrite)
    (hv : State.rewriteDone { s.clearOut with mem := { s.mem with outstanding := rest } } status = v) :
    exec (.rewriteAcknowledgement status) s = .next v.finish := by
  have hserves : e.purpose.isRewrite = true := by rw [hpurpose]; rfl
  have hfront : s.clearOut.dropFront = { s.clearOut with mem := { s.mem with outstanding := rest } } := by
    simp [State.dropFront, State.clearOut, haw.1]
  change acknowledge s Purpose.isRewrite true (State.rewriteDone · status) = _
  rw [acknowledge_next hlive.1 haw hserves rfl, hfront, hv]

/-- A rewrite acknowledged OK that leaves CLEAR_FAULT in its journal step, or finds none. -/
theorem rewriteOk_leads {s : State} {e : MemEntry} {rest : List MemEntry} {r : IssuedRecord} {more : List IssuedRecord}
    {clear : Option ClearStep} (hlive : Live s) (haw : Awaits s e rest) (hpurpose : e.purpose = .rewrite)
    (hfailed : s.journal.failed = r :: more)
    (hclear : s.engine.clear = some (.journal true) ∧ clear = some (.journal false)
      ∨ s.engine.clear ≠ some (.journal true) ∧ clear = s.engine.clear)
    (hstep : clear = none ∨ clear = some (.journal false) ∧ s.mgmt.running = some .clearFault) :
    let stepEnds := clear = some (.journal false) ∧ more = [] ∧ s.journal.outstanding = []
    let u := s.rewritten rest more clear
    (r.kind ≠ .commit → Leads (.rewriteAcknowledgement .ok) s fun t => t.out = Outputs.none
      ∧ (¬ stepEnds → Becomes t u)
      ∧ (stepEnds → ApplyStepBegins { u with engine := u.engine.without .journalWrite } t))
    ∧ ∀ g, r.kind = .commit → s.findGroup r.group = some g → Leads (.rewriteAcknowledgement .ok) s fun t =>
      SealsGroup s t g
      ∧ (∀ st, ∀ p ∈ (getV s.ports st).places, p.phase = .withheld g.ref → Answered t st p (.ok []))
      ∧ let v : State := { u with
          groups := t.groups, ports := t.ports, index := t.index, holds := t.holds
          mgmt := { s.mgmt with records := s.mgmt.records + 1, commits := s.mgmt.commits + 1 } }
        (¬ stepEnds → Becomes t v) ∧ (stepEnds → ApplyStepBegins { v with engine := v.engine.without .journalWrite } t) := by
  intro stepEnds u
  have hserves : e.purpose.isRewrite = true := by rw [hpurpose]; rfl
  have hdone := rewriteDone_ok (rest := rest) hfailed hclear
  refine ⟨fun hkind => ?_, fun g hkind hg => ?_⟩
  · obtain ⟨hstay, hgo⟩ := continueClear_journal (u := s.clearOut.rewritten rest more clear) hstep
    rw [if_neg hkind] at hdone
    refine acknowledge_leads (f := (State.rewriteDone · .ok)) rfl hlive haw hserves rfl hdone (by simp; rfl) fun t ht htout => ?_
    refine ⟨htout.trans (by simp; rfl), fun hends => ?_, fun hends => ?_⟩
    · rw [hstay hends] at ht
      exact ht
    · exact (hgo hends).becomes ht
  · have href := findGroup_ref hg
    have hu : State.findGroup (s.clearOut.rewritten rest more clear) g.ref = some g := by rw [href]; exact hg
    rw [if_pos hkind, ← href] at hdone
    have heq := sealedEvent_eq _ hu
    have hclearw : ((s.clearOut.rewritten rest more clear).sealedEvent g.ref).engine.clear = clear := by simp; rfl
    have hmore : ((s.clearOut.rewritten rest more clear).sealedEvent g.ref).journal.failed = more := by simp; rfl
    have hjournal : ((s.clearOut.rewritten rest more clear).sealedEvent g.ref).journal.outstanding = s.journal.outstanding := by
      simp
      rfl
    have hrunning : ((s.clearOut.rewritten rest more clear).sealedEvent g.ref).mgmt.running = s.mgmt.running := by rw [heq]; rfl
    obtain ⟨hstay, hgo⟩ := continueClear_journal (u := (s.clearOut.rewritten rest more clear).sealedEvent g.ref)
      (by rw [hclearw, hrunning]; exact hstep)
    rw [hclearw, hmore, hjournal] at hstay hgo
    refine ⟨_, rewriteAcknowledgement_next hlive haw hpurpose hdone, ?_, fun st p hp hphase => ?_, fun hends => ?_, fun hends => ?_⟩
    · exact sealsGroup_finish hu rfl rfl rfl rfl (by simp) (by simp) (by simp) (by simp) (by simp; rfl)
    · exact sealed_answers hu (by simp) st p hp hphase
    · rw [hstay hends]
      refine (becomes_finish _).trans ?_
      rw [sealedEvent_frame hu (by simp) (by simp) (by simp)]
      exact Becomes.refl _
    · refine (hgo hends).finish.of_frame ?_
      have hframe := sealedEvent_frame (t := ((s.clearOut.rewritten rest more clear).sealedEvent g.ref).continueClear.finish) hu
        (by simp) (by simp) (by simp)
      exact congrArg (fun x : State => { x with out := s.out }) hframe

/-- A rewrite that fails leaves the list as it was, and ends the CLEAR_FAULT that issued it FAILED (R112, R166). -/
theorem rewriteError_leads {s u : State} {e : MemEntry} {rest : List MemEntry} {r : IssuedRecord} {more : List IssuedRecord}
    (hlive : Live s) (haw : Awaits s e rest) (hpurpose : e.purpose = .rewrite) (hfailed : s.journal.failed = r :: more)
    (hu : u = (if s.ownsRewrite then State.failClear { s.clearOut with mem := { s.mem with outstanding := rest } }
      else { s.clearOut with mem := { s.mem with outstanding := rest } })) :
    Leads (.rewriteAcknowledgement .error) s fun t => t.out = Outputs.none ∧ Becomes t u := by
  have hserves : e.purpose.isRewrite = true := by rw [hpurpose]; rfl
  have hdone : State.rewriteDone { s.clearOut with mem := { s.mem with outstanding := rest } } .error = u := by
    rw [hu]
    have hfailed' : s.clearOut.journal.failed = r :: more := hfailed
    simp only [State.rewriteDone, hfailed']
    rfl
  have hports : u.ports = s.ports := by
    rw [hu]
    split <;> simp
  have hout : u.out = Outputs.none := by
    rw [hu]
    split <;> simp <;> rfl
  exact acknowledge_leads (f := (State.rewriteDone · .error)) rfl hlive haw hserves rfl hdone hports fun t ht htout =>
    ⟨htout.trans hout, ht⟩

/-- CLEAR_FAULT ends FAILED (R166). -/
theorem failClear_running {s : State} (hrun : s.mgmt.running = some .clearFault) : s.failClear = s.clearFailed := by
  unfold State.failClear
  rw [endIf_eq]
  simp only [endsIf_running _ hrun]
  rfl

/-- The grant of a rewrite (R112). -/
theorem rewriteIssue_leads {s : State} {q : IssuedRecord} {rest : List IssuedRecord} {byRotation : Bool} (hlive : Live s)
    (hgrant : Granted s .journalWriter byRotation) (hready : s.recordReady = false) (hfailed : s.journal.failed = q :: rest) :
    Leads .rewriteIssue s fun t =>
      let r := s.recordWrite q.kind (s.groupOf q.group) q.seq
      t.out = onlyIssue r ∧ Becomes t { s with
        engine := { s.engine with clear := some (.journal true) }
        mem := { s.mem with outstanding := s.mem.outstanding ++ [{ purpose := .rewrite, request := r, live := true }]
                            pointer := s.pointerAfter .journalWriter byRotation } } := by
  have hchoice : s.clearOut.arbiterChoice = some (.journalWriter, byRotation) := hgrant
  have hmove : (s.clearOut.movePointer .journalWriter byRotation) = { s.clearOut with
      mem := { s.mem with pointer := s.pointerAfter .journalWriter byRotation } } := by
    unfold State.movePointer State.pointerAfter
    split <;> rfl
  have hgranted : s.clearOut.grant = { s.clearOut with
      engine := { s.engine with clear := some (.journal true) }
      mem := { s.mem with
        outstanding := s.mem.outstanding ++ [{ purpose := .rewrite, request := s.recordWrite q.kind (s.groupOf q.group) q.seq, live := true }]
        pointer := s.pointerAfter .journalWriter byRotation }
      out := { Outputs.none with issued := some (s.recordWrite q.kind (s.groupOf q.group) q.seq) } } := by
    simp only [State.grant, hchoice, State.grantTo, hmove]
    rw [if_neg (by exact ne_true_of_eq_false hready)]
    simp only [State.issueRewrite, State.issue, hfailed, State.clearOut]
    rfl
  have hchosen : s.chosen = some .journalWriter := by
    unfold Granted at hgrant
    rw [State.chosen, hgrant]
    rfl
  refine leads_quiet (f := State.grant) rfl hlive.1 ?_ hgranted (noReadyFront_of_ports hlive.2 rfl) fun t ht htout => ⟨htout, ht⟩
  simp [hchosen, hready]

/-- Settles O18: the issue of a rewrite, and its acknowledgement with the CLEAR_FAULT that issued it and after its end. -/
theorem failedListIsRewritten : Obligations.FailedListIsRewritten := by
  unfold Obligations.FailedListIsRewritten
  refine ⟨fun s q rest byRotation => rewriteIssue_leads, fun s e rest r more hlive haw hpurpose hfailed hclear hrun => ?_,
    fun s e rest r more hlive haw hpurpose hfailed => ⟨fun hclear => ?_, fun hclear => ?_⟩⟩
  · intro last u
    have hok := rewriteOk_leads hlive haw hpurpose hfailed (.inl ⟨hclear, rfl⟩) (.inr ⟨rfl, hrun⟩)
    have herror := rewriteError_leads hlive haw hpurpose hfailed rfl
    simp only [State.ownsRewrite, hclear, decide_true, if_true] at herror
    rw [failClear_running (by exact hrun)] at herror
    simp only [true_and] at hok
    exact ⟨hok.1, hok.2, herror⟩
  · exact rewriteOk_leads (clear := s.engine.clear) hlive haw hpurpose hfailed
      (.inr ⟨by rcases hclear with h | ⟨h, -⟩ <;> simp [h], rfl⟩) hclear
  · have herror := rewriteError_leads hlive haw hpurpose hfailed rfl
    simp only [State.ownsRewrite, decide_eq_true_eq, if_neg hclear] at herror
    exact herror

end Sys2Proof.Machine
end

section
/-! The walk replays the later commits (O34). -/

namespace Sys2Proof.Machine

set_option Elab.async false

/-! ### The end of recovery in FAULTED (R158) -/

/-- With no held write, the entry into FAULTED declines none. -/
theorem foldl_declineHeld_none {s : State} (h : ∀ st, getV s.holds st = none) (reason : DeclineReason) (l : List Stream) :
    l.foldl (State.declineHeld · reason) s = s := by
  induction l with
  | nil => rfl
  | cons st l ih =>
    have hstay : s.declineHeld reason st = s := by simp only [State.declineHeld, h]
    rw [List.foldl_cons, hstay, ih]

theorem recoveryFault_eq {s : State} (hstate : s.engine.state = .recovering) (hholds : ∀ st, getV s.holds st = none) :
    s.recoveryFault .recoveryMismatch = { s with
      engine := s.engine.faultedWith .recoveryMismatch none
      mgmt := (s.mgmt.push (.fault .recoveryMismatch)).restartEnds .failed
      mem := { s.mem with outstanding := ignoring Purpose.isRecovery s.mem.outstanding } } := by
  have hstate' : (s.ignore Purpose.isRecovery).engine.state = .recovering := hstate
  simp only [State.recoveryFault, State.report, State.enterFaulted, hstate', reduceCtorEq, if_false]
  rw [foldl_declineHeld_none (by exact hholds), endIf_eq]
  rfl

/-! ### The walk and its end (R153, R156) -/

theorem walkOn_at {s : State} {h : Word} (hhead : s.service.recovery.scannedHead = some h)
    (hcursor : s.service.recovery.cursor = h) : s.walkOn = s.replayEnds h := by
  simp only [State.walkOn, hhead, hcursor, if_true]
  rfl

theorem walkOn_before {s : State} {h : Word} (hhead : s.service.recovery.scannedHead = some h)
    (hcursor : s.service.recovery.cursor ≠ h) : s.walkOn = s := by
  simp only [State.walkOn, hhead, hcursor, if_false]

theorem walkOn_becomes {s t : State} {h : Word} (ht : Becomes t s.walkOn) (hhead : s.service.recovery.scannedHead = some h) :
    (s.service.recovery.cursor ≠ h → Becomes t s) ∧ (s.service.recovery.cursor = h → Becomes t (s.replayEnds h)) := by
  refine ⟨fun hcursor => ?_, fun hcursor => ?_⟩
  · rwa [walkOn_before hhead hcursor] at ht
  · rwa [walkOn_at hhead hcursor] at ht

/-! ### The count check (R154, R155) -/

/-- A group replayed in full frees its slots and its descriptor, and the walk goes on, to end at H (R155). -/
theorem replayed_replays {s u t : State} {g : Group} {h : Word} (hhead : u.service.recovery.scannedHead = some h)
    (hs : s = { u with service := { u.service with replay := s.service.replay } }) (ht : Becomes t (s.replayed g)) :
    Replayed u t g h := by
  have hwalk : s.replayed g = State.walkOn { u with
      pool := u.pool.release g.entries
      groups := { u.groups with replaying := none }
      service := { u.service with
        replay := none
        recovery := { u.service.recovery with
          lastReplayed := g.commitNumber, groupsReplayed := u.service.recovery.groupsReplayed + 1 } } } := by
    rw [hs]
    rfl
  rw [hwalk] at ht
  have hpool : t.pool = u.pool.release g.entries := by
    obtain ⟨-, -, -, -, -, -, hpool, -⟩ := ht.fields
    rw [hpool]
    simp only [State.walkOn_keeps]
  rw [← hpool] at ht
  obtain ⟨hon, hend⟩ := walkOn_becomes ht hhead
  refine ⟨by rw [hpool]; rfl, fun id => ?_, hon, hend⟩
  rw [State.slot, hpool]
  exact release_slot u.pool g.entries id

theorem countCheck_writes {s : State} {p : Replay} {g : Group} (hg : s.groups.replaying = some g)
    (hmatched : p.matched = p.entryCount.toNat) (hslots : g.entries.length = p.slotCount.toNat) (hsome : g.entries ≠ []) :
    s.countCheck p = { s with service := { s.service with replay := some { p with writing := true } } } := by
  simp only [State.countCheck, hg]
  rw [if_pos (by simp [hmatched, hslots]), if_neg (by simpa using hsome)]

theorem countCheck_replays {s : State} {p : Replay} {g : Group} (hg : s.groups.replaying = some g)
    (hmatched : p.matched = p.entryCount.toNat) (hslots : g.entries.length = p.slotCount.toNat) (hnone : g.entries = []) :
    s.countCheck p = State.replayed { s with service := { s.service with replay := some { p with writing := true } } } g := by
  simp only [State.countCheck, hg]
  rw [if_pos (by simp [hmatched, hslots]), if_pos (by simpa using hnone)]

theorem countCheck_fails {s : State} {p : Replay} {g : Group} (hg : s.groups.replaying = some g)
    (hdiff : p.matched ≠ p.entryCount.toNat ∨ g.entries.length ≠ p.slotCount.toNat) :
    s.countCheck p = s.recoveryFault .recoveryMismatch := by
  simp only [State.countCheck, hg]
  rw [if_neg (by simpa only [Bool.and_eq_true, decide_eq_true_eq, not_and_or] using hdiff)]

/-- With no held write, no response becomes ready at the count check. -/
theorem countCheck_ports {s : State} (hstate : s.engine.state = .recovering) (hholds : ∀ st, getV s.holds st = none) (p : Replay) :
    (s.countCheck p).ports = s.ports := by
  simp only [State.countCheck, recoveryFault_eq hstate hholds]
  split
  · rfl
  · split
    · split <;> simp
    · rfl

theorem countCheck_checks {s t : State} {p : Replay} {g : Group} {pool : SlotPool} {rest : List MemEntry}
    (hstate : s.engine.state = .recovering) (hholds : ∀ st, getV s.holds st = none) (hout : t.out = Outputs.none)
    (ht : Becomes t (State.countCheck { s with
      pool := pool
      groups := { s.groups with replaying := some g }
      mem := { s.mem with outstanding := rest }
      service := { s.service with replay := some p } } p)) : CountCheck s t p g pool rest := by
  refine ⟨hout, fun hmatched hslots hsome => ?_, fun h hmatched hslots hnone hhead => ?_, fun hdiff => ?_⟩
  · rw [countCheck_writes rfl hmatched hslots hsome] at ht
    exact ht
  · rw [countCheck_replays rfl hmatched hslots hnone] at ht
    refine replayed_replays ?_ ?_ ht
    · exact hhead
    · rfl
  · rw [countCheck_fails rfl hdiff, recoveryFault_eq (by exact hstate) (by exact hholds)] at ht
    exact ht

/-! ### The completion of a read of the walk (R153) -/

theorem recordOf_some {s : State} {f : Format} (hformat : s.journal.format = some f) (seq : Word) (data : List Byte) :
    s.recordOf seq (.ok data) = readRecord f.stamp seq data := by
  simp only [State.recordOf, hformat, Option.elim_some]

/-- A completion that brings no valid record. -/
theorem recordOf_none {s : State} {f : Format} {seq : Word} {c : Completion} (hformat : s.journal.format = some f)
    (hnone : ∀ data, c = .ok data → readRecord f.stamp seq data = none) : s.recordOf seq c = none := by
  cases c with
  | ok data => rw [recordOf_some hformat, hnone data rfl]
  | error => rfl

theorem walkDone_fault {s : State} {seq : Word} {c : Completion} (h : s.recordOf seq c = none) :
    s.walkDone seq c = s.recoveryFault .recoveryMismatch := by
  simp only [State.walkDone, h]

/-- An ENTRY or FILLER record, or a COMMIT not later than C, only moves the cursor. -/
theorem walkDone_walks {s : State} {seq : Word} {c : Completion} {x : Record} (h : s.recordOf seq c = some x)
    (hold : ∀ st g n ec sc, x = .commit st g n ec sc → later n s.service.recovery.through = false) :
    s.walkDone seq c = (s.withRecovery fun r => { r with cursor := seq + 1 }).walkOn := by
  simp only [State.walkDone, h]
  cases x with
  | commit st g n ec sc =>
    have hlater := hold st g n ec sc rfl
    exact if_neg (by rw [Bool.not_eq_true]; exact hlater)
  | entry st n l cells => rfl
  | filler => rfl

theorem walkDone_begins {s : State} {seq : Word} {c : Completion} {st : Byte} {g n ec sc : Word}
    (h : s.recordOf seq c = some (.commit st g n ec sc)) (hlater : later n s.service.recovery.through = true) :
    s.walkDone seq c = (s.withRecovery fun r => { r with cursor := seq + 1 }).beginReplay seq st g n ec sc := by
  simp only [State.walkDone, h]
  exact if_pos hlater

/-- An event that has led to `u`, with the ports as they were and nothing put out. -/
theorem leads_of_next {c : Instr} {s u : State} {P : State → Prop} (hlive : Live s) (hnext : exec c s = .next u.finish)
    (hports : u.ports = s.ports) (hout : u.out = Outputs.none) (hP : ∀ t, Becomes t u → t.out = Outputs.none → P t) :
    Leads c s P := by
  have hquiet := noReadyFront_of_ports hlive.2 hports
  exact ⟨u.finish, hnext, hP _ (becomes_finish_quiet hquiet) ((out_finish_quiet hquiet).trans hout)⟩

theorem dropFront_clearOut {s : State} {e : MemEntry} {rest : List MemEntry} (haw : Awaits s e rest) :
    s.clearOut.dropFront = { s.clearOut with mem := { s.mem with outstanding := rest } } := by
  simp [State.dropFront, State.clearOut, haw.1]

theorem walkRead_leads {s u : State} {e : MemEntry} {rest : List MemEntry} {seq : Word} {c : Completion} {P : State → Prop}
    (hlive : Live s) (haw : Awaits s e rest) (hpurpose : e.purpose = .walkRead seq) (hfits : e.request.fits c = true)
    (hu : State.walkDone { s.clearOut with mem := { s.mem with outstanding := rest } } seq c = u) (hports : u.ports = s.ports)
    (hP : ∀ t, Becomes t u → t.out = Outputs.none → P t) : Leads (.walkReadCompletion c) s P := by
  have hserves : e.purpose.isWalk = true := by rw [hpurpose]; rfl
  have hout : u.out = Outputs.none := by
    rw [← hu]
    simp only [State.walkDone_keeps]
    rfl
  refine leads_of_next hlive ?_ hports hout hP
  rw [← hu, ← dropFront_clearOut haw]
  change execWalkReadCompletion c s = _
  rw [execWalkReadCompletion, complete_next hlive.1 haw hserves hfits, hpurpose]

theorem filledFrom_replayGroup (ref : Nat) (st : Byte) (g n ec : Word) : FilledFrom (replayGroup ref st g n ec) ref st g n ec := by
  refine ⟨rfl, rfl, ?_, rfl, rfl, rfl, rfl, rfl, rfl⟩
  simp [replayGroup]

/-- A group's collection has begun: its descriptor is filled and the walk's reads in flight will be ignored. -/
def State.collecting (s : State) (seq : Word) (st : Byte) (g n ec sc : Word) : State :=
  { s with
    groups := { s.groups with replaying := some (replayGroup s.groups.nextRef st g n ec), nextRef := s.groups.nextRef + 1 }
    mem := { s.mem with outstanding := ignoring Purpose.isWalkRead s.mem.outstanding }
    service := { s.service with
      replay := some { seq := seq, stream := st, entryCount := ec, slotCount := sc, cursor := s.service.recovery.tail
                       matched := 0, writing := false, nextPos := 0, acked := 0 } } }

/-- With records before the COMMIT the collection reads them. -/
theorem beginReplay_collects {s : State} {seq : Word} (st : Byte) (g n ec sc : Word) (h : s.service.recovery.tail ≠ seq) :
    s.beginReplay seq st g n ec sc = s.collecting seq st g n ec sc := by
  have h' : (s.ignore Purpose.isWalkRead).service.recovery.tail ≠ seq := h
  simp only [State.beginReplay, State.collectOn]
  rw [if_neg h']
  rfl

/-- With the COMMIT at T nothing is left to collect: the count check follows at once (log entry 18). -/
theorem beginReplay_checks {s : State} {seq : Word} (st : Byte) (g n ec sc : Word) (hstate : s.engine.state = .recovering)
    (hholds : ∀ st, getV s.holds st = none) (htail : s.service.recovery.tail = seq) :
    (s.beginReplay seq st g n ec sc).ports = s.ports
    ∧ ∀ t, Becomes t (s.beginReplay seq st g n ec sc) → t.out = Outputs.none →
      CountCheck { s with groups := { s.groups with nextRef := s.groups.nextRef + 1 } } t
        { seq := seq, stream := st, entryCount := ec, slotCount := sc, cursor := seq
          matched := 0, writing := false, nextPos := 0, acked := 0 }
        (replayGroup s.groups.nextRef st g n ec) s.pool (ignoring Purpose.isWalkRead s.mem.outstanding) := by
  subst htail
  have hcheck : s.beginReplay s.service.recovery.tail st g n ec sc
      = (s.collecting s.service.recovery.tail st g n ec sc).countCheck
        { seq := s.service.recovery.tail, stream := st, entryCount := ec, slotCount := sc, cursor := s.service.recovery.tail
          matched := 0, writing := false, nextPos := 0, acked := 0 } := by
    simp only [State.beginReplay, State.collectOn]
    exact if_pos rfl
  rw [hcheck]
  exact ⟨countCheck_ports (s := s.collecting s.service.recovery.tail st g n ec sc) hstate hholds _,
    fun t ht htout => countCheck_checks hstate hholds htout ht⟩

/-- Settles O34: each kind of record a read of the walk brings. -/
theorem walkReplaysLaterCommits : Obligations.WalkReplaysLaterCommits := by
  unfold Obligations.WalkReplaysLaterCommits
  intro s e rest seq h f hlive haw hpurpose hstate hphase hhead hformat
  refine ⟨fun data x hfits hx hold => ?_, fun data st g n ec sc hfits hx hlater htail => ?_,
    fun hholds data st g n ec sc hfits hx hlater htail => ?_, fun hholds c hfits hnone => ?_⟩
  · refine walkRead_leads hlive haw hpurpose hfits (walkDone_walks ((recordOf_some hformat seq data).trans hx) hold) (by simp)
      fun t ht htout => ?_
    obtain ⟨hon, hend⟩ := walkOn_becomes ht hhead
    exact ⟨htout, hon, hend⟩
  · have hrecord : State.recordOf { s.clearOut with mem := { s.mem with outstanding := rest } } seq (.ok data)
        = some (.commit st g n ec sc) := (recordOf_some (f := f) (by exact hformat) seq data).trans hx
    have hcollects := beginReplay_collects
      (s := State.withRecovery { s.clearOut with mem := { s.mem with outstanding := rest } } fun r => { r with cursor := seq + 1 })
      st g n ec sc (Ne.symm htail)
    exact walkRead_leads hlive haw hpurpose hfits ((walkDone_begins hrecord hlater).trans hcollects) rfl fun t ht htout =>
      ⟨htout, _, filledFrom_replayGroup s.groups.nextRef st g n ec, ht⟩
  · have hrecord : State.recordOf { s.clearOut with mem := { s.mem with outstanding := rest } } seq (.ok data)
        = some (.commit st g n ec sc) := (recordOf_some (f := f) (by exact hformat) seq data).trans hx
    obtain ⟨hports, hcheck⟩ := beginReplay_checks
      (s := State.withRecovery { s.clearOut with mem := { s.mem with outstanding := rest } } fun r => { r with cursor := seq + 1 })
      st g n ec sc hstate hholds htail.symm
    exact walkRead_leads hlive haw hpurpose hfits (walkDone_begins hrecord hlater) hports fun t ht htout =>
      ⟨_, filledFrom_replayGroup s.groups.nextRef st g n ec, hcheck t ht htout⟩
  · have hrecord : State.recordOf { s.clearOut with mem := { s.mem with outstanding := rest } } seq c = none :=
      recordOf_none (f := f) (by exact hformat) hnone
    have hfault := recoveryFault_eq (s := { s.clearOut with mem := { s.mem with outstanding := rest } }) (by exact hstate) (by exact hholds)
    exact walkRead_leads hlive haw hpurpose hfits ((walkDone_fault hrecord).trans hfault) rfl fun t ht htout => ⟨htout, ht⟩

end Sys2Proof.Machine
end

section
/-! The collection of a replayed group and its count check (O35). -/

namespace Sys2Proof.Machine

set_option Elab.async false

/-! ### The completion of a read of a collection (R154) -/

/-- The state in which a completion reaches its requester, its request no longer outstanding. -/
def State.received (s : State) (rest : List MemEntry) : State := { s.clearOut with mem := { s.mem with outstanding := rest } }

theorem collectRead_leads {s u : State} {e : MemEntry} {rest : List MemEntry} {seq : Word} {c : Completion} {P : State → Prop}
    (hlive : Live s) (haw : Awaits s e rest) (hpurpose : e.purpose = .collectRead seq) (hfits : e.request.fits c = true)
    (hu : (s.received rest).collectDone seq c = u)
    (hports : u.ports = s.ports) (hP : ∀ t, Becomes t u → t.out = Outputs.none → P t) : Leads (.walkReadCompletion c) s P := by
  have hserves : e.purpose.isWalk = true := by rw [hpurpose]; rfl
  have hout : u.out = Outputs.none := by
    rw [← hu]
    simp only [State.collectDone_keeps]
    rfl
  refine leads_of_next hlive ?_ hports hout hP
  rw [← hu, State.received, ← dropFront_clearOut haw]
  change execWalkReadCompletion c s = _
  rw [execWalkReadCompletion, complete_next hlive.1 haw hserves hfits, hpurpose]

section

variable {s : State} {p : Replay} {g : Group} {seq : Word} {c : Completion}

theorem collectDone_fault (hp : s.service.replay = some p) (hg : s.groups.replaying = some g) (h : s.recordOf seq c = none) :
    s.collectDone seq c = s.recoveryFault .recoveryMismatch := by
  simp only [State.collectDone, hp, hg, h]

/-- A record that is no ENTRY of the group only moves the cursor. -/
theorem collectDone_passes {x : Record} (hp : s.service.replay = some p) (hg : s.groups.replaying = some g)
    (h : s.recordOf seq c = some x) (hother : ∀ l cells, x ≠ .entry p.stream g.number l cells) :
    s.collectDone seq c = s.collectOn { p with cursor := seq + 1 } := by
  simp only [State.collectDone, hp, hg, h]
  cases x with
  | entry st n l cells =>
    refine if_neg fun hmatch => ?_
    rw [Bool.and_eq_true, decide_eq_true_eq, decide_eq_true_eq] at hmatch
    obtain ⟨rfl, rfl⟩ := hmatch
    exact hother l cells rfl
  | commit st n k ec sc => rfl
  | filler => rfl

/-- An ENTRY of the group whose line has a slot, or gets one, counts. -/
theorem collectDone_collects {t : State} {l : Line} {cells : List (Option Byte)} (hp : s.service.replay = some p)
    (hg : s.groups.replaying = some g) (h : s.recordOf seq c = some (.entry p.stream g.number l cells))
    (ht : s.collectEntry g p.slotCount l cells = some t) :
    s.collectDone seq c = t.collectOn { p with cursor := seq + 1, matched := p.matched + 1 } := by
  simp only [State.collectDone, hp, hg, h, decide_true, Bool.and_self, if_true, ht]

theorem collectDone_refuses {l : Line} {cells : List (Option Byte)} (hp : s.service.replay = some p)
    (hg : s.groups.replaying = some g) (h : s.recordOf seq c = some (.entry p.stream g.number l cells))
    (ht : s.collectEntry g p.slotCount l cells = none) : s.collectDone seq c = s.recoveryFault .recoveryMismatch := by
  simp only [State.collectDone, hp, hg, h, decide_true, Bool.and_self, if_true, ht]

theorem collectEntry_held {id : SlotId} {l : Line} (slots : Word) (cells : List (Option Byte)) (h : s.slotFor g l = some id) :
    s.collectEntry g slots l cells = some { s with
      pool := { s.pool with slots := setV s.pool.slots id (some { line := l, cells := cells, group := g.ref }) } } := by
  simp only [State.collectEntry, h]
  rfl

theorem collectEntry_new {id : SlotId} {free : List SlotId} {l : Line} {slots : Word} (cells : List (Option Byte))
    (h : s.slotFor g l = none) (hfree : s.pool.free = id :: free) (hroom : g.entries.length + 1 ≤ slots.toNat) :
    s.collectEntry g slots l cells = some { s with
      groups := { s.groups with replaying := some { g with entries := g.entries ++ [id] } }
      pool := { slots := setV s.pool.slots id (some { line := l, cells := cells, group := g.ref }), free := free } } := by
  simp only [State.collectEntry, h, hfree]
  refine if_neg ?_
  simp only [List.length_append, List.length_singleton]
  omega

/-- A list that would grow longer than the COMMIT's slot count takes no slot. -/
theorem collectEntry_full {l : Line} {slots : Word} (cells : List (Option Byte)) (h : s.slotFor g l = none)
    (hfull : slots.toNat < g.entries.length + 1) : s.collectEntry g slots l cells = none := by
  simp only [State.collectEntry, h]
  split
  · rfl
  · refine if_pos ?_
    simp only [List.length_append, List.length_singleton]
    exact hfull

theorem collectOn_before (h : p.cursor ≠ p.seq) : s.collectOn p = { s with service := { s.service with replay := some p } } := by
  simp only [State.collectOn]
  exact if_neg h

theorem collectOn_at (h : p.cursor = p.seq) :
    s.collectOn p = State.countCheck { s with service := { s.service with replay := some p } } p := by
  simp only [State.collectOn]
  exact if_pos h

end

/-- The collection has reached the COMMIT. -/
theorem collectOn_checks {s v : State} {p : Replay} {g : Group} {pool : SlotPool} {rest : List MemEntry}
    (hstate : s.engine.state = .recovering) (hholds : ∀ st, getV s.holds st = none) (hat : p.cursor = p.seq)
    (hv : v = { s with pool := pool, groups := { s.groups with replaying := some g }, mem := { s.mem with outstanding := rest } }) :
    (v.collectOn p).ports = s.ports
    ∧ ∀ t, Becomes t (v.collectOn p) → t.out = Outputs.none → CountCheck s t p g pool rest := by
  subst hv
  rw [collectOn_at hat]
  exact ⟨by rw [countCheck_ports (by exact hstate) (by exact hholds)], fun t ht htout => countCheck_checks hstate hholds htout ht⟩

/-- A collection that ends in FAULTED (R158). -/
theorem collectRead_faults {s : State} {e : MemEntry} {rest : List MemEntry} {seq : Word} {c : Completion} (hlive : Live s)
    (haw : Awaits s e rest) (hpurpose : e.purpose = .collectRead seq) (hfits : e.request.fits c = true)
    (hstate : s.engine.state = .recovering) (hholds : ∀ st, getV s.holds st = none)
    (hdone : (s.received rest).collectDone seq c = (s.received rest).recoveryFault .recoveryMismatch) :
    Leads (.walkReadCompletion c) s fun t =>
      t.engine = s.engine.faultedWith .recoveryMismatch none ∧ t.mgmt = (s.mgmt.push (.fault .recoveryMismatch)).restartEnds .failed
      ∧ t.mem = { s.mem with outstanding := ignoring Purpose.isRecovery rest } ∧ SameTables s t := by
  have hfault := recoveryFault_eq (s := s.received rest) hstate hholds
  refine collectRead_leads hlive haw hpurpose hfits (hdone.trans hfault) rfl fun t ht htout => ?_
  obtain ⟨-, -, -, -, -, hgroups, hpool, hindex, -, -, -, -, hmem, hengine, hmgmt, -⟩ := ht.fields
  exact ⟨hengine, hmgmt, hmem, hgroups, hpool, hindex⟩

/-- Settles O35: an ENTRY in a slot that is there or in a new one, another record, an end in FAULTED, and the last record
before the COMMIT. -/
theorem collectionFillsAndCounts : Obligations.CollectionFillsAndCounts := by
  unfold Obligations.CollectionFillsAndCounts
  refine ⟨fun s e rest seq f p g hlive haw hpurpose hstate hformat hp hg hholds => ⟨?_, ?_, ?_⟩,
    fun s e rest seq f p g data x hlive haw hpurpose hstate hformat hp hg hholds hfits hx hlast => ⟨fun hother => ?_, ?_⟩⟩
  · rintro data st n l cells hfits hx rfl rfl hbefore
    have hrecord := (recordOf_some (s := s.received rest) hformat seq data).trans hx
    refine ⟨fun id hid => ?_, fun id free hid hfree hroom => ?_⟩
    · have hdone := collectDone_collects (s := s.received rest) hp hg hrecord (collectEntry_held p.slotCount cells hid)
      exact collectRead_leads hlive haw hpurpose hfits (hdone.trans (collectOn_before hbefore)) rfl fun t ht htout => ⟨htout, ht⟩
    · have hdone := collectDone_collects (s := s.received rest) hp hg hrecord (collectEntry_new cells hid hfree hroom)
      exact collectRead_leads hlive haw hpurpose hfits (hdone.trans (collectOn_before hbefore)) rfl fun t ht htout => ⟨htout, ht⟩
  · intro data x hfits hx hother hbefore
    have hrecord := (recordOf_some (s := s.received rest) hformat seq data).trans hx
    have hdone := collectDone_passes (s := s.received rest) hp hg hrecord hother
    exact collectRead_leads hlive haw hpurpose hfits (hdone.trans (collectOn_before hbefore)) rfl fun t ht htout => ⟨htout, ht⟩
  · rintro c hfits (hnone | ⟨data, l, cells, rfl, hx, hid, hfull⟩)
    · have hrecord := recordOf_none (s := s.received rest) hformat hnone
      exact collectRead_faults hlive haw hpurpose hfits hstate hholds (collectDone_fault hp hg hrecord)
    · have hrecord := (recordOf_some (s := s.received rest) hformat seq data).trans hx
      exact collectRead_faults hlive haw hpurpose hfits hstate hholds
        (collectDone_refuses hp hg hrecord (collectEntry_full cells hid hfull))
  · have hrecord := (recordOf_some (s := s.received rest) hformat seq data).trans hx
    have hdone := collectDone_passes (s := s.received rest) hp hg hrecord hother
    obtain ⟨hports, hcheck⟩ := collectOn_checks (s := s.clearOut) (v := s.received rest) (p := { p with cursor := seq + 1 })
      (g := g) (pool := s.pool) (rest := rest) hstate hholds hlast (by rw [← hg]; rfl)
    exact collectRead_leads hlive haw hpurpose hfits hdone hports hcheck
  · rintro l cells rfl q content
    have hrecord := (recordOf_some (s := s.received rest) hformat seq data).trans hx
    refine ⟨fun id hid => ?_, fun id free hid hfree hroom => ?_⟩
    · have hdone := collectDone_collects (s := s.received rest) hp hg hrecord (collectEntry_held p.slotCount cells hid)
      obtain ⟨hports, hcheck⟩ := collectOn_checks (s := s.clearOut) (p := q) (g := g) (rest := rest)
        (pool := { s.pool with slots := setV s.pool.slots id (some content) }) hstate hholds hlast (by rw [← hg])
      exact collectRead_leads hlive haw hpurpose hfits hdone hports hcheck
    · have hdone := collectDone_collects (s := s.received rest) hp hg hrecord (collectEntry_new cells hid hfree hroom)
      obtain ⟨hports, hcheck⟩ := collectOn_checks (s := s.clearOut) (p := q) (g := { g with entries := g.entries ++ [id] })
        (pool := { slots := setV s.pool.slots id (some content), free := free }) (rest := rest) hstate hholds hlast rfl
      exact collectRead_leads hlive haw hpurpose hfits hdone hports hcheck

end Sys2Proof.Machine
end

section
/-! The verdict of an examination (O6). -/

namespace Sys2Proof.Machine

set_option Elab.async false

/-! ### The conditions of each verdict (R53 to R60, R68, R75 to R80) -/

/-- What the rules say of a request that is classified so. -/
def VerdictAt (s : State) (st : Stream) (r : Request) : Verdict → Prop
  | .pass cancel => PassesAt s st r cancel
  | .merged => MergedAt s r
  | .zeroEnable => ZeroEnableAt s r
  | .decline reason => DeclinedAt s st r reason
  | .hold kind waits want => ∃ pr, HeldAt s st r pr waits want kind
  | .discard why reason => OverflowsAt s st r why
      ∧ (why = .groupLimit ∧ reason = .groupLimit ∨ why = .overflow ∧ reason = .overflow)
  | .take commit => TakenAt s st r commit

section

variable {s : State} {st : Stream} {r : Request} {pr : Profile} {g : Region}

theorem belowReserve_iff : ((s.openGroup? st).isNone && decide (s.freeSlots < s.newSlots st r + pr.openReserve.toNat)) = true
    ↔ BelowReserve s pr st r := by
  simp [BelowReserve]

/-- The write is short of slots, of record-queue places or of ring positions (R77). -/
theorem short_iff (commit : Bool) : (s.shortSlots st r || s.shortQueue r commit || s.shortRing st r) = true
    ↔ ¬ (s.newSlots st r ≤ s.freeSlots ∧ s.journal.queue.length + (r.visited.length + bit commit) ≤ 32
      ∧ s.distance + s.claims + (r.visited.length + bit (s.openGroup? st).isNone) ≤ s.ringSize) := by
  simp only [State.shortSlots, State.shortQueue, State.shortRing, Bool.or_eq_true, decide_eq_true_eq, not_and_or, not_le, or_assoc]

theorem notShort_iff (commit : Bool) : NotShort s st r commit
    ↔ (s.shortSlots st r || s.shortQueue r commit || s.shortRing st r || s.shortPipeline commit) = false := by
  simp only [NotShort, State.shortSlots, State.shortQueue, State.shortRing, State.shortPipeline, Bool.or_eq_false_iff,
    decide_eq_false_iff_not, not_lt, Bool.and_eq_false_iff, not_le, and_assoc]
  cases commit <;> simp

theorem spaceChecks_at (hj : Journaled s pr g st r) (hfree : ConflictFree s st r) :
    VerdictAt s st r (s.spaceChecks pr (getV pr.streams st) st r) := by
  unfold State.spaceChecks
  split
  next hover => exact ⟨⟨pr, g, hj, hfree, hover⟩, .inl ⟨rfl, rfl⟩⟩
  next hlimit =>
    rw [not_lt] at hlimit
    split
    next hreserve => exact ⟨pr, rfl, g, hj, hfree, hlimit, .inl ⟨belowReserve_iff.1 hreserve, rfl⟩⟩
    next hreserve =>
      rw [belowReserve_iff] at hreserve
      have hwithin : WithinLimits s pr st r := ⟨hlimit, fun hnone => by simpa [BelowReserve, hnone] using hreserve⟩
      dsimp only
      split
      next hroom => exact ⟨pr, g, hj, rfl, hfree, hwithin, (notShort_iff _).2 (by simpa using hroom)⟩
      next hshort =>
        rw [Bool.not_eq_true, Bool.not_eq_false'] at hshort
        split
        next hrelief =>
          by_cases hspace : (s.shortSlots st r || s.shortQueue r (isCommitWrite (getV pr.streams st) r) || s.shortRing st r) = true
          · rw [if_pos hspace]
            exact ⟨pr, rfl, g, hj, hfree, hlimit, .inr ⟨hreserve, (short_iff _).1 hspace, hrelief, rfl⟩⟩
          · rw [if_neg hspace]
            rw [Bool.not_eq_true] at hspace
            rw [hspace, Bool.false_or, State.shortPipeline, Bool.and_eq_true, decide_eq_true_eq] at hshort
            obtain ⟨hcommit, hpipe⟩ := hshort
            simp only [Bool.or_eq_false_iff] at hspace
            obtain ⟨⟨hslots, hqueue⟩, hring⟩ := hspace
            rw [hcommit] at hqueue
            rw [hcommit, hqueue] at hrelief
            have hqueue' : s.shortQueue r false = false := by
              have hbits : bit false ≤ bit true := by decide
              simp only [State.shortQueue, decide_eq_false_iff_not] at hqueue ⊢
              omega
            refine ⟨pr, rfl, by rw [hring, Bool.and_false], g, hj, hfree, hwithin, (notShort_iff _).2 ?_, hqueue, hcommit, hpipe, hrelief⟩
            rw [hslots, hqueue', hring]
            rfl
        next hrelief =>
          rw [Bool.not_eq_true] at hrelief
          refine ⟨⟨pr, g, hj, hfree, hwithin, fun hroom => ?_, hrelief⟩, .inr ⟨rfl, rfl⟩⟩
          rw [(notShort_iff _).1 hroom] at hshort
          cases hshort

theorem journaledPath_at (hj : Journaled s pr g st r) : VerdictAt s st r (s.journaledPath pr (getV pr.streams st) st r) := by
  unfold State.journaledPath
  dsimp only
  split
  next hfree => exact spaceChecks_at hj (List.isEmpty_iff.1 hfree)
  next hwaits =>
    have hwaits' : s.waitSet st r ≠ [] := by simpa using hwaits
    split
    next hcycle => exact ⟨pr, g, hj, hwaits', hcycle⟩
    next hcycle => exact ⟨pr, rfl, rfl, g, hj, hwaits', by simpa using hcycle⟩

theorem classifyProtected_at (hp : ProtectedWrite s pr g r) : VerdictAt s st r (s.classifyProtected pr g st r) := by
  unfold State.classifyProtected
  dsimp only
  split
  next hmask => exact ⟨pr, g, hp, by simpa using hmask⟩
  next hmask =>
    have hmask' : g.mask.getLsbD st.val = true := by simpa using hmask
    split
    next hoff => exact ⟨pr, g, hp, hmask', by simpa using hoff⟩
    next hoff =>
      have hon : (getV pr.streams st).enabled = true := by simpa using hoff
      split
      next hfaulted => exact .inr ⟨hfaulted, pr, hp.1, .inr ⟨g, hp, hmask', hon⟩⟩
      next hfaulted =>
        split
        next hquiesced => exact ⟨pr, rfl, rfl, g, hp, hmask', hon, .inl hquiesced⟩
        next hquiesced =>
          split
          next hquiescing =>
            exact ⟨pr, rfl, rfl, g, hp, hmask', hon, .inr (by simpa using hquiescing)⟩
          next hquiescing =>
            refine journaledPath_at (g := g) ⟨hp, hmask', hon, ?_⟩
            obtain ⟨⟨-, hrecovering, hunformatted, -⟩, -⟩ := hp
            cases hstate : s.engine.state <;> simp_all [Option.isSome_iff_ne_none]

theorem classifyRead_at (ht : PastFirstTests s pr r) (hread : Op.isRead r.op = true) : VerdictAt s st r (s.classifyRead pr r) := by
  unfold State.classifyRead
  split
  next hnone => exact .inr ⟨pr, ht, by simpa using hnone, .inl ⟨hread, rfl⟩⟩
  next hsome =>
    have hsome' : (pr.regionAt r.first).isSome := by simpa [Option.isSome_iff_ne_none] using hsome
    split
    next hfault =>
      obtain ⟨hfaulted, hcauses⟩ : s.engine.state = .faulted ∧ ∀ c ∈ s.engine.causes, c.onlineSide = false := by simpa using hfault
      exact .inr ⟨hfaulted, pr, ht, .inl ⟨hread, hsome', hcauses⟩⟩
    next hfault => exact ⟨pr, ht, hread, hsome', fun hfaulted => by simpa [hfaulted] using hfault⟩

theorem classifyWrite_at (ht : PastFirstTests s pr r) (hwrite : Op.isRead r.op = false) :
    VerdictAt s st r (s.classifyWrite pr st r) := by
  unfold State.classifyWrite
  split
  next hzero => exact ⟨pr, ht, hwrite, by simpa using hzero⟩
  next henabled =>
    have henabled' : r.hasEnabled = true := by simpa using henabled
    split
    next hregion => exact .inr ⟨pr, ht, hregion, .inr ⟨hwrite, henabled', rfl⟩⟩
    next g hregion => exact classifyProtected_at ⟨ht, hwrite, henabled', hregion⟩

/-- The classification answers a verdict whose conditions hold. -/
theorem classify_at (hrecovering : s.engine.state ≠ .recovering)
    (hprofile : s.profile = none → s.engine.state = .unformatted ∨ s.engine.state = .faulted) :
    VerdictAt s st r (s.classify st r) := by
  unfold State.classify
  split
  next hunformatted => exact .inl ⟨hunformatted, rfl⟩
  next hformatted =>
    split
    next hnone => exact .inl ⟨(hprofile hnone).resolve_left hformatted, hnone⟩
    next pr hpr =>
      have hsome : s.profile.isSome := by rw [hpr]; rfl
      split
      next hcross => exact ⟨hformatted, hsome, hcross⟩
      next hcross =>
        rw [Bool.not_eq_true] at hcross
        split
        next harea => exact ⟨hformatted, hsome, hcross, harea⟩
        next harea =>
          rw [Bool.not_eq_true] at harea
          have ht : PastFirstTests s pr r := ⟨hpr, hrecovering, hformatted, hcross, harea⟩
          split
          next hread => exact classifyRead_at ht hread
          next hwrite => exact classifyWrite_at ht (by simpa using hwrite)

end

/-! ### Admission and re-examination -/

/-- An admission acts on its request by what the classification answers (R46, R58). -/
theorem exec_admission {s : State} {st : Stream} {p : Place} (hrun : s.run = .running) (h : Admissible s st p) :
    exec (.admission st) s = .next (s.clearOut.act st p (s.classify st p.request)).finish := by
  obtain ⟨hadmits, hnext⟩ := h
  have hnext' : s.clearOut.nextRequest st = some p := hnext
  change happen s (s.admits st && (s.nextRequest st).isSome) (State.admitNext · st) = _
  rw [happen_next hrun (by simp [hadmits, hnext]), State.admitNext, hnext']
  rfl

/-- A re-examination that is owed acts on its held write likewise, with one owed fewer (R67). -/
theorem exec_reExamination {s : State} {st : Stream} {p : Place} {h : HeldWrite} (hrun : s.run = .running)
    (hformat : s.formatRuns = false) (hh : getV s.holds st = some h) (hdue : 0 < h.due) (hp : s.place? st h.place = some p) :
    exec (.reExamination st) s = .next ((s.clearOut.payDue st h).act st p (s.classify st p.request)).finish := by
  rw [exec_of_examines hrun (.inr ⟨rfl, hformat, h, hh, hdue, hp⟩)]
  have hpaid : s.clearOut.paid st (.reExamination st) = s.clearOut.payDue st h := by
    have hh' : getV s.clearOut.holds st = some h := hh
    simp only [State.paid, hh']
  rw [hpaid]

/-- Settles O6: each verdict has its conditions and they lead to it, and an examination acts by it. -/
theorem everyRequestIsDecided : Obligations.EveryRequestIsDecided := by
  unfold Obligations.EveryRequestIsDecided
  refine ⟨fun s st r hrecovering hprofile => ?_, fun s st r => ⟨fun cancel => classify_of_passesAt, classify_of_mergedAt,
    classify_of_zeroEnableAt, fun reason => classify_of_declinedAt, fun pr waits want kind => classify_of_heldAt,
    classify_of_overflowsAt, classify_of_overflowsAt, fun commit => classify_of_takenAt⟩,
    fun s st p => exec_admission, fun s st p h => exec_reExamination⟩
  have hat := classify_at (st := st) (r := r) hrecovering hprofile
  generalize s.classify st r = v at hat
  cases v <;> exact hat

end Sys2Proof.Machine
end

section
/-! SUPPORT. The Line Index when a version joins, and the visited lines of a write. -/

namespace Sys2Proof.Machine

set_option Elab.async false

/-! ### The Line Index when a version joins (R28) -/

/-- The entries stand in line order. -/
def IndexSorted (index : List IndexEntry) : Prop := index.Pairwise fun a b => a.line.toNat < b.line.toNat

/-- The entry of a line in an index. -/
def indexFind (index : List IndexEntry) (l : Line) : Option IndexEntry := index.find? fun e => e.line = l

/-- The entry of a line to which the stream has brought the version `id`. -/
def entryTaken (old : Option IndexEntry) (l : Line) (st : Stream) (id : SlotId) : IndexEntry :=
  { line := l, owner := some st, sealedPart := old.elim [] (·.sealedPart), unsealedPart := old.elim [] (·.unsealedPart)
    openPart := some id }

theorem indexFind_cons_same (e : IndexEntry) (index : List IndexEntry) : indexFind (e :: index) e.line = some e := by
  simp [indexFind]

theorem indexFind_cons_other {e : IndexEntry} (index : List IndexEntry) {l : Line} (h : e.line ≠ l) :
    indexFind (e :: index) l = indexFind index l := by
  simp [indexFind, h]

theorem indexFind_none {index : List IndexEntry} {l : Line} (h : ∀ e ∈ index, e.line ≠ l) : indexFind index l = none := by
  simpa [indexFind] using h

theorem mem_indexTake {l : Line} {st : Stream} {id : SlotId} {index : List IndexEntry} {x : IndexEntry}
    (h : x ∈ indexTake l st id index) : x.line = l ∨ x ∈ index := by
  induction index with
  | nil => exact .inl (by rw [List.mem_singleton.1 h])
  | cons e rest ih =>
    unfold indexTake at h
    split at h
    next hline =>
      rcases List.mem_cons.1 h with rfl | h
      · exact .inl hline
      · exact .inr (List.mem_cons_of_mem _ h)
    next hline =>
      split at h
      next hlt =>
        rcases List.mem_cons.1 h with rfl | h
        · exact .inl rfl
        · exact .inr h
      next hle =>
        rcases List.mem_cons.1 h with rfl | h
        · exact .inr (List.mem_cons_self ..)
        · exact (ih h).imp_right (List.mem_cons_of_mem _)

theorem sorted_indexTake (l : Line) (st : Stream) (id : SlotId) {index : List IndexEntry} (h : IndexSorted index) :
    IndexSorted (indexTake l st id index) := by
  induction index with
  | nil => exact List.pairwise_singleton ..
  | cons e rest ih =>
    obtain ⟨hhead, htail⟩ := List.pairwise_cons.1 h
    unfold indexTake
    split
    next hline => exact List.pairwise_cons.2 ⟨hhead, htail⟩
    next hline =>
      split
      next hlt =>
        refine List.pairwise_cons.2 ⟨fun x hx => ?_, h⟩
        rcases List.mem_cons.1 hx with rfl | hx
        · exact hlt
        · exact hlt.trans (hhead x hx)
      next hle =>
        have hne : e.line.toNat ≠ l.toNat := fun heq => hline (BitVec.eq_of_toNat_eq heq)
        refine List.pairwise_cons.2 ⟨fun x hx => ?_, ih htail⟩
        rcases mem_indexTake hx with hx | hx
        · rw [hx]
          omega
        · exact hhead x hx

theorem indexFind_indexTake_same (l : Line) (st : Stream) (id : SlotId) {index : List IndexEntry} (h : IndexSorted index) :
    indexFind (indexTake l st id index) l = some (entryTaken (indexFind index l) l st id) := by
  induction index with
  | nil => exact indexFind_cons_same (entryTaken none l st id) []
  | cons e rest ih =>
    obtain ⟨hhead, htail⟩ := List.pairwise_cons.1 h
    unfold indexTake
    split
    next hline =>
      subst hline
      rw [indexFind_cons_same e rest]
      exact indexFind_cons_same { e with owner := some st, openPart := some id } rest
    next hline =>
      split
      next hlt =>
        have hnone : indexFind (e :: rest) l = none := by
          refine indexFind_none fun x hx heq => ?_
          subst heq
          rcases List.mem_cons.1 hx with rfl | hx
          · exact lt_irrefl _ hlt
          · exact lt_asymm hlt (hhead x hx)
        rw [hnone]
        exact indexFind_cons_same (entryTaken none l st id) (e :: rest)
      next hle => rw [indexFind_cons_other _ hline, indexFind_cons_other _ hline, ih htail]

theorem indexFind_indexTake_other {l l' : Line} (st : Stream) (id : SlotId) (index : List IndexEntry) (h : l' ≠ l) :
    indexFind (indexTake l st id index) l' = indexFind index l' := by
  induction index with
  | nil => exact indexFind_cons_other (e := entryTaken none l st id) [] h.symm
  | cons e rest ih =>
    unfold indexTake
    split
    next hline =>
      have hother : e.line ≠ l' := by rw [hline]; exact h.symm
      rw [indexFind_cons_other _ hother]
      exact indexFind_cons_other (e := { e with owner := some st, openPart := some id }) _ hother
    next hline =>
      split
      next hlt => exact indexFind_cons_other (e := entryTaken none l st id) _ h.symm
      next hle =>
        by_cases hfirst : e.line = l'
        · subst hfirst
          rw [indexFind_cons_same, indexFind_cons_same]
        · rw [indexFind_cons_other _ hfirst, indexFind_cons_other _ hfirst, ih]

/-! ### The visited lines (R13, R75) -/

/-- The lines of a request within one block are distinct. -/
theorem lines_nodup {r : Request} (h : r.crossesBlock = false) : r.lines.Nodup := by
  have haddr : r.addr.toNat < 2 ^ 36 := r.addr.isLt
  have hblock : r.addr.toNat % 128 + r.op.length ≤ 128 := by simpa [Request.crossesBlock] using h
  refine List.Nodup.map_on (fun a ha b hb heq => ?_) (List.nodup_range' _)
  rw [List.mem_range'_1] at ha hb
  have heq' := congrArg BitVec.toNat heq
  simp only [BitVec.toNat_ofNat] at heq'
  omega

theorem visited_nodup {r : Request} (h : r.crossesBlock = false) : r.visited.Nodup := (lines_nodup h).filter _

end Sys2Proof.Machine
end

section
/-! SUPPORT. One visited line joins the OPEN group. -/

namespace Sys2Proof.Machine

set_option Elab.async false

/-! ### One visited line joins the OPEN group (R13, R14) -/

/-- The lines of `L` that the group holds no slot for. -/
def State.linesWithout (s : State) (g : Group) (L : List Line) : List Line := L.filter fun l => (s.slotFor g l).isNone

/-- What the group's slot for line `l` holds when the write has joined. -/
def State.joinedSlot (s : State) (g : Group) (r : Request) (l : Line) : Slot :=
  { line := l
    cells := ((s.slotFor g l).bind s.slot).elim (r.cells l) fun x => overlay x.cells (r.cells l)
    group := ((s.slotFor g l).bind s.slot).elim g.ref (·.group) }

/-- The lines of `L`, with the bytes of `r`, have joined the stream's OPEN group `g`, which is now `g'`; `ids` are the slots of
the lines, in their order. -/
structure LinesJoin (st : Stream) (r : Request) (L : List Line) (s t : State) (g g' : Group) (ids : List SlotId) : Prop where
  group : g' = { g with entries := g.entries ++ s.pool.free.take (s.linesWithout g L).length
                        recordCount := g.recordCount + BitVec.ofNat 32 L.length }
  groups : t.groups = { s.groups with opens := setV s.groups.opens st (some g') }
  free : t.pool.free = s.pool.free.drop (s.linesWithout g L).length
  queue : t.journal.queue = s.journal.queue ++ ids.map fun id => { kind := .entry id, group := g.ref }
  other : ∀ id, id ∉ ids → t.slot id = s.slot id
  origin : ∀ id ∈ ids, (∃ l ∈ L, s.slotFor g l = some id) ∨ id ∈ s.pool.free
  filled : List.Forall₂ (fun id l => id ∈ g'.entries ∧ t.slot id = some (s.joinedSlot g r l)) ids L
  entryNew : ∀ l ∈ s.linesWithout g L, ∃ id ∈ g'.entries, t.entry l = some (entryTaken (s.entry l) l st id)
    ∧ (t.slot id).map (·.line) = some l
  entryOld : ∀ l, l ∉ s.linesWithout g L → t.entry l = s.entry l
  frame : t = { s with groups := t.groups, pool := t.pool, index := t.index, journal := { s.journal with queue := t.journal.queue } }

theorem slotFor_line {s : State} {g : Group} {l : Line} {id : SlotId} (h : s.slotFor g l = some id) :
    id ∈ g.entries ∧ ∃ x, s.slot id = some x ∧ x.line = l := by
  refine ⟨List.mem_of_find?_eq_some h, ?_⟩
  have hline := List.find?_some h
  simpa using hline

theorem slotFor_congr {s t : State} {g g' : Group} {l : Line} (hentries : g'.entries = g.entries)
    (hlines : ∀ id ∈ g.entries, (t.slot id).map (·.line) = (s.slot id).map (·.line)) : t.slotFor g' l = s.slotFor g l := by
  unfold State.slotFor
  rw [hentries]
  exact List.find?_congr fun id hid => by rw [hlines id hid]

/-- A line whose slot the group holds is merged into it. -/
theorem takeLine_held {s : State} {st : Stream} {g : Group} {l : Line} {id : SlotId} (cells : List (Option Byte))
    (hg : s.openGroup? st = some g) (h : s.slotFor g l = some id) : s.takeLine st l cells = { s with
      pool := s.pool.merge id cells
      groups := { s.groups with opens := setV s.groups.opens st (some { g with recordCount := g.recordCount + 1 }) }
      journal := { s.journal with queue := s.journal.queue ++ [{ kind := .entry id, group := g.ref }] } } := by
  simp only [State.takeLine, hg, h]
  rfl

/-- A line that the group does not hold takes the slot at the head of the free list. -/
theorem takeLine_new {s : State} {st : Stream} {g : Group} {l : Line} {id : SlotId} {free : List SlotId}
    (cells : List (Option Byte)) (hg : s.openGroup? st = some g) (h : s.slotFor g l = none) (hfree : s.pool.free = id :: free) :
    s.takeLine st l cells = { s with
      pool := { slots := setV s.pool.slots id (some { line := l, cells := cells, group := g.ref }), free := free }
      index := indexTake l st id s.index
      groups := { s.groups with
        opens := setV s.groups.opens st (some { g with entries := g.entries ++ [id], recordCount := g.recordCount + 1 }) }
      journal := { s.journal with queue := s.journal.queue ++ [{ kind := .entry id, group := g.ref }] } } := by
  simp only [State.takeLine, hg, h, hfree]
  rfl

theorem slot_merge (p : SlotPool) (i id : SlotId) (cells : List (Option Byte)) : getV (p.merge i cells).slots id
    = if id = i then (getV p.slots i).map fun x => { x with cells := overlay x.cells cells } else getV p.slots id := by
  simp only [SlotPool.merge, getV_setV]

/-- The lines of `L` can join the stream's OPEN group `g`. -/
structure Joinable (s : State) (st : Stream) (g : Group) (L : List Line) : Prop where
  opened : s.openGroup? st = some g
  slots : (g.entries ++ s.pool.free).Nodup
  sorted : IndexSorted s.index
  distinct : L.Nodup
  room : (s.linesWithout g L).length ≤ s.pool.free.length

theorem linesWithout_held {s : State} {g : Group} {l : Line} {id : SlotId} (L : List Line) (h : s.slotFor g l = some id) :
    s.linesWithout g (l :: L) = s.linesWithout g L := by
  simp [State.linesWithout, h]

theorem linesWithout_new {s : State} {g : Group} {l : Line} (L : List Line) (h : s.slotFor g l = none) :
    s.linesWithout g (l :: L) = l :: s.linesWithout g L := by
  simp [State.linesWithout, h]

theorem linesWithout_congr {s t : State} {g g' : Group} {L : List Line} (h : ∀ l ∈ L, t.slotFor g' l = s.slotFor g l) :
    t.linesWithout g' L = s.linesWithout g L :=
  List.filter_congr fun l hl => by rw [h l hl]

/-- A line merged into its slot has joined. -/
theorem takeLine_held_joins {s : State} {st : Stream} {g : Group} {l : Line} {id : SlotId} (r : Request)
    (hg : s.openGroup? st = some g) (h : s.slotFor g l = some id) :
    LinesJoin st r [l] s (s.takeLine st l (r.cells l)) g { g with recordCount := g.recordCount + 1 } [id] := by
  obtain ⟨hmem, x, hx, hline⟩ := slotFor_line h
  have hnone : s.linesWithout g [l] = [] := linesWithout_held [] h
  rw [takeLine_held _ hg h]
  refine ⟨?_, rfl, ?_, rfl, fun id' hid => ?_, fun id' hid => ?_, .cons ⟨hmem, ?_⟩ .nil, ?_, fun l' hl => rfl, rfl⟩
  · simp [hnone]
  · rw [hnone]
    rfl
  · exact (slot_merge s.pool id id' _).trans (if_neg (by simpa using hid))
  · exact .inl ⟨l, by simp, by rw [h, List.mem_singleton.1 hid]⟩
  · have hx' : getV s.pool.slots id = some x := hx
    refine (slot_merge s.pool id id _).trans ?_
    simp [State.joinedSlot, h, hx, hx', hline]
  · rw [hnone]
    exact fun l' hl => absurd hl List.not_mem_nil

/-- A line in a new slot has joined. -/
theorem takeLine_new_joins {s : State} {st : Stream} {g : Group} {l : Line} {id : SlotId} {free : List SlotId} (r : Request)
    (hg : s.openGroup? st = some g) (hsorted : IndexSorted s.index) (h : s.slotFor g l = none) (hfree : s.pool.free = id :: free) :
    LinesJoin st r [l] s (s.takeLine st l (r.cells l)) g
      { g with entries := g.entries ++ [id], recordCount := g.recordCount + 1 } [id] := by
  have hone : s.linesWithout g [l] = [l] := linesWithout_new [] h
  have hslot (x : Slot) : getV (setV s.pool.slots id (some x)) id = some x := getV_setV_same ..
  rw [takeLine_new _ hg h hfree]
  refine ⟨?_, rfl, ?_, rfl, fun id' hid => ?_, fun id' hid => ?_, .cons ⟨by simp, ?_⟩ .nil, fun l' hl => ?_, fun l' hl => ?_, rfl⟩
  · simp [hone, hfree]
  · simp [hone, hfree]
  · exact getV_setV_other _ _ _ _ (by simpa using hid)
  · exact .inr (by rw [hfree, List.mem_singleton.1 hid]; exact List.mem_cons_self ..)
  · refine (hslot _).trans ?_
    simp [State.joinedSlot, h]
  · rw [hone] at hl
    obtain rfl := List.mem_singleton.1 hl
    refine ⟨id, by simp, indexFind_indexTake_same l' st id hsorted, ?_⟩
    exact congrArg (Option.map (·.line)) (hslot _)
  · rw [hone] at hl
    exact indexFind_indexTake_other st id s.index (by simpa using hl)

end Sys2Proof.Machine
end

section
/-! SUPPORT. The lines of a write join one after another. -/

namespace Sys2Proof.Machine

set_option Elab.async false

/-! ### The lines of a write join one after another (R13) -/

/-- A merge leaves every line where it is. -/
theorem slotFor_takeLine_held {s : State} {st : Stream} {g : Group} {l : Line} {id : SlotId} (cells : List (Option Byte))
    (hg : s.openGroup? st = some g) (h : s.slotFor g l = some id) (l' : Line) :
    (s.takeLine st l cells).slotFor { g with recordCount := g.recordCount + 1 } l' = s.slotFor g l' := by
  rw [takeLine_held _ hg h]
  refine slotFor_congr rfl fun id' _ => ?_
  simp only [State.slot, slot_merge]
  split
  next heq =>
    subst heq
    rw [Option.map_map]
    rfl
  next => rfl

/-- A new slot at the end of the list holds its own line and no other. -/
theorem slotFor_append {s t : State} {g g' : Group} {id : SlotId} {x : Slot} {l : Line} (hentries : g'.entries = g.entries ++ [id])
    (hid : t.slot id = some x) (hne : x.line ≠ l) (hother : ∀ i ∈ g.entries, t.slot i = s.slot i) :
    t.slotFor g' l = s.slotFor g l := by
  have hlast : [id].find? (fun i => decide ((t.slot i).map (·.line) = some l)) = none := by simp [hid, hne]
  unfold State.slotFor
  rw [hentries, List.find?_append, hlast, Option.or_none]
  exact List.find?_congr fun i hi => by rw [hother i hi]

theorem slotFor_takeLine_new {s : State} {st : Stream} {g : Group} {l l' : Line} {id : SlotId} {free : List SlotId}
    (cells : List (Option Byte)) (hg : s.openGroup? st = some g) (h : s.slotFor g l = none) (hfree : s.pool.free = id :: free)
    (hslots : (g.entries ++ s.pool.free).Nodup) (hne : l' ≠ l) :
    (s.takeLine st l cells).slotFor { g with entries := g.entries ++ [id], recordCount := g.recordCount + 1 } l'
      = s.slotFor g l' := by
  rw [takeLine_new _ hg h hfree]
  refine slotFor_append rfl (getV_setV_same ..) hne.symm fun i hi => getV_setV_other _ _ _ _ fun heq => ?_
  subst heq
  rw [hfree] at hslots
  exact List.disjoint_of_nodup_append hslots hi (List.mem_cons_self ..)

/-- The next line joins: it does so, the other lines keep their slots, and the rest can join. -/
theorem takeLine_joins {s : State} {st : Stream} {g : Group} {l : Line} {L : List Line} (r : Request)
    (h : Joinable s st g (l :: L)) : ∃ g' id, LinesJoin st r [l] s (s.takeLine st l (r.cells l)) g g' [id]
      ∧ (∀ l', l' ≠ l → (s.takeLine st l (r.cells l)).slotFor g' l' = s.slotFor g l')
      ∧ Joinable (s.takeLine st l (r.cells l)) st g' L := by
  obtain ⟨hg, hslots, hsorted, hdistinct, hroom⟩ := h
  obtain ⟨hl, hL⟩ := List.nodup_cons.1 hdistinct
  have hother : ∀ l' ∈ L, l' ≠ l := fun l' hl' heq => hl (heq ▸ hl')
  cases hid : s.slotFor g l with
  | some id =>
    have hlookup := slotFor_takeLine_held (r.cells l) hg hid
    refine ⟨_, id, takeLine_held_joins r hg hid, fun l' _ => hlookup l', ?_⟩
    rw [linesWithout_held L hid] at hroom
    rw [← linesWithout_congr fun l' _ => hlookup l'] at hroom
    have hstep := takeLine_held (r.cells l) hg hid
    generalize s.takeLine st l (r.cells l) = u at hstep hroom
    subst hstep
    exact ⟨getV_setV_same .., hslots, hsorted, hL, hroom⟩
  | none =>
    rw [linesWithout_new L hid, List.length_cons] at hroom
    cases hfree : s.pool.free with
    | nil => simp [hfree] at hroom
    | cons id free =>
      have hlookup {l' : Line} (hne : l' ≠ l) := slotFor_takeLine_new (r.cells l) hg hid hfree hslots hne
      refine ⟨_, id, takeLine_new_joins r hg hsorted hid hfree, fun l' hne => hlookup hne, ?_⟩
      rw [← linesWithout_congr fun l' hl' => hlookup (hother l' hl'), hfree, List.length_cons] at hroom
      rw [hfree, List.append_cons] at hslots
      have hstep := takeLine_new (r.cells l) hg hid hfree
      generalize s.takeLine st l (r.cells l) = u at hstep hroom
      subst hstep
      exact ⟨getV_setV_same .., hslots, sorted_indexTake l st id hsorted, hL, Nat.le_of_succ_le_succ hroom⟩

/-- No line is a line list that has joined. -/
theorem LinesJoin.nil {s : State} {st : Stream} {g : Group} (r : Request) (hg : s.openGroup? st = some g) :
    LinesJoin st r [] s s g g [] := by
  have hopens : setV s.groups.opens st (some g) = s.groups.opens := by
    rw [← hg]
    exact setV_getV ..
  exact ⟨by simp [State.linesWithout], by rw [hopens], rfl, (List.append_nil _).symm, fun _ _ => rfl,
    fun _ h => absurd h List.not_mem_nil, .nil, fun _ h => absurd h List.not_mem_nil, fun _ _ => rfl, rfl⟩

theorem linesWithout_cons (s : State) (g : Group) (l : Line) (L : List Line) :
    s.linesWithout g (l :: L) = s.linesWithout g [l] ++ s.linesWithout g L := by
  unfold State.linesWithout
  rw [← List.filter_append]
  rfl

theorem mem_linesWithout {s : State} {g : Group} {l : Line} {L : List Line} (h : l ∈ s.linesWithout g L) : l ∈ L :=
  List.mem_of_mem_filter h

section

variable {s u v : State} {st : Stream} {r : Request} {l : Line} {L : List Line} {g g₁ g' : Group} {id : SlotId}
  {ids : List SlotId}

theorem forall₂_imp_of_mem {α β : Type} {R S : α → β → Prop} {as : List α} {bs : List β} (h : ∀ a, ∀ b ∈ bs, R a b → S a b)
    (hR : List.Forall₂ R as bs) : List.Forall₂ S as bs := by
  induction hR with
  | nil => exact .nil
  | cons hab _ ih => exact .cons (h _ _ (List.mem_cons_self ..) hab) (ih fun a b hb => h a b (List.mem_cons_of_mem _ hb))

/-- The slot of a line that has joined is none of those of the lines that join after it. -/
theorem LinesJoin.not_mem {i : SlotId} (h : LinesJoin st r L u v g₁ g' ids) (hu : Joinable u st g₁ L) (hl : l ∉ L)
    (hi : i ∈ g₁.entries) (hline : (u.slot i).map (·.line) = some l) : i ∉ ids := by
  intro hmem
  rcases h.origin i hmem with ⟨l', hl', hslot⟩ | hfree
  · obtain ⟨-, x, hx, hx'⟩ := slotFor_line hslot
    rw [hx, Option.map_some, Option.some.injEq, hx'] at hline
    exact hl (hline ▸ hl')
  · exact List.disjoint_of_nodup_append hu.slots hi hfree

/-- What a later line finds in its slot is what it was before. -/
theorem joinedSlot_after (h : LinesJoin st r [l] s u g g₁ [id]) (hlookup : ∀ l', l' ≠ l → u.slotFor g₁ l' = s.slotFor g l')
    {l' : Line} (hne : l' ≠ l) : u.joinedSlot g₁ r l' = s.joinedSlot g r l' := by
  have hcontent : (s.slotFor g l').bind u.slot = (s.slotFor g l').bind s.slot := by
    cases hid : s.slotFor g l' with
    | none => rfl
    | some i =>
      refine h.other i fun hi => ?_
      obtain rfl := List.mem_singleton.1 hi
      obtain ⟨-, x, hx, hline⟩ := slotFor_line ((hlookup l' hne).trans hid)
      obtain ⟨⟨-, hslot⟩, -⟩ := List.forall₂_cons.1 h.filled
      rw [hx, Option.some.injEq] at hslot
      rw [hslot] at hline
      exact hne hline.symm
  have href : g₁.ref = g.ref := by rw [h.group]
  simp only [State.joinedSlot, hlookup l' hne, hcontent, href]

theorem LinesJoin.cons (h₁ : LinesJoin st r [l] s u g g₁ [id]) (h₂ : LinesJoin st r L u v g₁ g' ids) (hu : Joinable u st g₁ L)
    (hl : l ∉ L) (hlookup : ∀ l', l' ≠ l → u.slotFor g₁ l' = s.slotFor g l') :
    LinesJoin st r (l :: L) s v g g' (id :: ids) := by
  have hother : ∀ l' ∈ L, l' ≠ l := fun l' hl' heq => hl (heq ▸ hl')
  have hlater : u.linesWithout g₁ L = s.linesWithout g L := linesWithout_congr fun l' hl' => hlookup l' (hother l' hl')
  have hlength : (s.linesWithout g (l :: L)).length = (s.linesWithout g [l]).length + (u.linesWithout g₁ L).length := by
    rw [linesWithout_cons, List.length_append, hlater]
  have hgrow : ∀ i ∈ g₁.entries, i ∈ g'.entries := fun i hi => by
    rw [h₂.group]
    exact List.mem_append_left _ hi
  obtain ⟨⟨hid, hslot⟩, -⟩ := List.forall₂_cons.1 h₁.filled
  refine ⟨?_, ?_, ?_, ?_, fun i hi => ?_, fun i hi => ?_, .cons ⟨hgrow id hid, ?_⟩ ?_, fun l' hl' => ?_, fun l' hl' => ?_, ?_⟩
  · have hcount : g.recordCount + BitVec.ofNat 32 [l].length + BitVec.ofNat 32 L.length
        = g.recordCount + BitVec.ofNat 32 (l :: L).length := by
      rw [BitVec.add_assoc, ← BitVec.ofNat_add, List.length_cons (as := L), Nat.add_comm L.length]
      rfl
    rw [h₂.group, h₁.free, hlength, List.take_add, ← hcount, h₁.group, ← List.append_assoc]
  · rw [h₂.groups, h₁.groups, setV_setV]
  · rw [h₂.free, h₁.free, hlength, List.drop_drop]
  · rw [h₂.queue, h₁.queue, h₁.group]
    simp
  · rw [List.mem_cons, not_or] at hi
    rw [h₂.other i hi.2, h₁.other i (by simpa using hi.1)]
  · rcases List.mem_cons.1 hi with rfl | hi
    · exact (h₁.origin i (List.mem_singleton_self i)).imp_left fun ⟨l', hl', h⟩ =>
        ⟨l', List.mem_singleton.1 hl' ▸ List.mem_cons_self .., h⟩
    · rcases h₂.origin i hi with ⟨l', hl', h⟩ | h
      · exact .inl ⟨l', List.mem_cons_of_mem _ hl', by rwa [hlookup l' (hother l' hl')] at h⟩
      · rw [h₁.free] at h
        exact .inr (List.mem_of_mem_drop h)
  · rw [h₂.other id (h₂.not_mem hu hl hid (by rw [hslot]; rfl)), hslot]
  · refine forall₂_imp_of_mem (fun i l' hl' ⟨hi, h⟩ => ⟨hi, ?_⟩) h₂.filled
    rw [h, joinedSlot_after h₁ hlookup (hother l' hl')]
  · rw [linesWithout_cons, List.mem_append] at hl'
    rcases hl' with hl' | hl'
    · obtain rfl := List.mem_singleton.1 (mem_linesWithout hl')
      obtain ⟨i, hi, hentry, hline⟩ := h₁.entryNew l' hl'
      refine ⟨i, hgrow i hi, ?_, ?_⟩
      · rw [h₂.entryOld l' fun h => hl (mem_linesWithout h), hentry]
      · rw [h₂.other i (h₂.not_mem hu hl hi hline), hline]
    · rw [← hlater] at hl'
      obtain ⟨i, hi, hentry, hline⟩ := h₂.entryNew l' hl'
      refine ⟨i, hi, ?_, hline⟩
      rw [hentry, h₁.entryOld l' fun h => hother l' (mem_linesWithout hl') (List.mem_singleton.1 (mem_linesWithout h))]
  · rw [linesWithout_cons, List.mem_append, not_or] at hl'
    rw [h₂.entryOld l' (by rw [hlater]; exact hl'.2), h₁.entryOld l' hl'.1]
  · have hframe := h₂.frame
    rw [h₁.frame] at hframe
    exact hframe

/-- The lines join one after another. -/
theorem linesJoin_foldl {L : List Line} (r : Request) : ∀ {s : State} {g : Group}, Joinable s st g L →
    ∃ g' ids, LinesJoin st r L s (L.foldl (fun s l => s.takeLine st l (r.cells l)) s) g g' ids := by
  induction L with
  | nil => exact fun h => ⟨_, [], .nil r h.opened⟩
  | cons l L ih =>
    intro s g h
    obtain ⟨g₁, id, hjoin, hlookup, hrest⟩ := takeLine_joins r h
    obtain ⟨g', ids, hjoins⟩ := ih hrest
    exact ⟨g', id :: ids, hjoin.cons hjoins hrest (List.nodup_cons.1 h.distinct).1 hlookup⟩

end

end Sys2Proof.Machine
end

section
/-! SUPPORT. The group that a write joins, and what the write has changed. -/

namespace Sys2Proof.Machine

set_option Elab.async false

/-! ### The group that a write joins (R2, R3) -/

/-- The stream's hold has ended and it has an OPEN group. -/
def State.opened (s : State) (st : Stream) : State :=
  if ((s.endHold st).openGroup? st).isSome then s.endHold st else (s.endHold st).openGroup st

theorem opened_eq (s : State) (st : Stream) : s.opened st = { s with
    holds := setV s.holds st none
    groups := { s.groups with
      opens := setV s.groups.opens st (some (s.openOrNew st))
      nextGroup := if s.openGroup? st = none then s.groups.nextGroup + 1 else s.groups.nextGroup
      nextRef := if s.openGroup? st = none then s.groups.nextRef + 1 else s.groups.nextRef } } := by
  have hsame : (s.endHold st).openGroup? st = s.openGroup? st := rfl
  unfold State.opened State.openOrNew
  rw [hsame]
  cases hg : s.openGroup? st with
  | none => rfl
  | some g =>
    have hopens : setV s.groups.opens st (some g) = s.groups.opens := by
      rw [← hg]
      exact setV_getV ..
    simp only [Option.isSome_some, if_true, Option.getD_some, hopens, reduceCtorEq, if_false]
    rfl

theorem slotFor_opened (s : State) (st : Stream) (l : Line) :
    (s.opened st).slotFor (s.openOrNew st) l = (s.openGroup? st).bind (s.slotFor · l) := by
  rw [opened_eq, State.openOrNew]
  cases s.openGroup? st <;> rfl

theorem linesWithout_opened (s : State) (st : Stream) (r : Request) :
    (s.opened st).linesWithout (s.openOrNew st) r.visited = s.newLines st r := by
  unfold State.linesWithout State.newLines
  simp only [slotFor_opened]
  cases s.openGroup? st with
  | none => exact List.filter_eq_self.2 fun _ _ => rfl
  | some g => rfl

theorem length_newLines (s : State) (st : Stream) (r : Request) : (s.newLines st r).length = s.newSlots st r := by
  unfold State.newLines State.newSlots
  cases s.openGroup? st <;> rfl

theorem mem_newLines {s : State} {st : Stream} {r : Request} {l : Line} (h : l ∈ s.newLines st r) : l ∈ r.visited := by
  rw [← linesWithout_opened] at h
  exact mem_linesWithout h

/-- No slot is twice in the free list and the list of the group that is, or would be, open (R12). -/
theorem slots_nodup {s : State} (h : FreeListLaw s) (st : Stream) : ((s.openOrNew st).entries ++ s.pool.free).Nodup := by
  have hall : (s.pool.free ++ s.slotsInUse).Nodup := h.nodup_iff.2 (List.nodup_finRange 256)
  obtain ⟨hfree, huse, hdisjoint⟩ := List.nodup_append'.1 hall
  unfold State.openOrNew
  cases hg : s.openGroup? st with
  | none => exact hfree
  | some g =>
    have hmem : g ∈ s.groups.held := by
      simp only [GroupTable.held, List.mem_append, List.mem_filterMap, id_eq, exists_eq_right]
      refine .inl (.inl ?_)
      rw [toList_eight]
      exact List.mem_map.2 ⟨st, Sys2Proof.mem_allStreams st, hg⟩
    have hentries : g.entries.Nodup := (List.nodup_flatMap.1 huse).1 g hmem
    exact hentries.append hfree fun i hi hi' => hdisjoint hi' (List.mem_flatMap.2 ⟨g, hmem, hi⟩)

/-- The lines of a write that fits can join. -/
theorem joinable_opened {s : State} {st : Stream} {r : Request} (hslots : FreeListLaw s) (hindex : IndexLaw s)
    (hcross : r.crossesBlock = false) (hroom : s.newSlots st r ≤ s.freeSlots) :
    Joinable (s.opened st) st (s.openOrNew st) r.visited := by
  have hlines := linesWithout_opened s st r
  rw [opened_eq] at hlines ⊢
  refine ⟨getV_setV_same .., slots_nodup hslots st, hindex.1, visited_nodup hcross, ?_⟩
  rw [hlines, length_newLines]
  exact hroom

/-- The queued records and OPEN groups after one descriptor has been written. -/
theorem countP_setV (v : Vector (Option Group) 8) (st : Stream) (x : Option Group) :
    (setV v st x).toList.countP (·.isSome) + (getV v st).toList.length = v.toList.countP (·.isSome) + x.toList.length := by
  obtain ⟨before, behind, haround⟩ := opens_around v st
  have hcount (w : Vector (Option Group) 8) : w.toList.countP (·.isSome) = (w.toList.filterMap id).length :=
    (List.length_filterMap_eq_countP ..).symm
  have hv := haround (getV v st)
  rw [setV_getV] at hv
  rw [hcount, hcount, haround x, hv]
  simp only [List.length_append]
  omega

/-- The write's lines have joined in the event that has led from `s` to `t` so far. -/
def TakesLines (s t : State) (st : Stream) (r : Request) (g : Group) (ids : List SlotId) : Prop :=
  LinesJoin st r r.visited (s.opened st) t (s.openOrNew st) g ids

theorem takesLines_takeLines {s : State} {st : Stream} {r : Request} {commit : Bool} (hslots : FreeListLaw s)
    (hindex : IndexLaw s) (htaken : TakenAt s st r commit) : ∃ g ids, TakesLines s ((s.opened st).takeLines st r) st r g ids := by
  obtain ⟨pr, x, ⟨⟨⟨-, -, -, hcross, -⟩, -⟩, -⟩, -, -, -, hroom, -⟩ := htaken
  exact linesJoin_foldl r (joinable_opened hslots hindex hcross hroom)

section

variable {s t : State} {st : Stream} {r : Request} {g : Group} {ids : List SlotId}

theorem TakesLines.ref (h : TakesLines s t st r g ids) : g.ref = (s.openOrNew st).ref := by
  rw [LinesJoin.group h]

theorem TakesLines.joined (h : TakesLines s t st r g ids) : Joined s st r g t.pool t.journal.queue := by
  have hlength : ((s.opened st).linesWithout (s.openOrNew st) r.visited).length = s.newSlots st r := by
    rw [linesWithout_opened, length_newLines]
  have hpool : (s.opened st).pool = s.pool := by rw [opened_eq]
  have hqueue : (s.opened st).journal.queue = s.journal.queue := by rw [opened_eq]
  have hslot : (s.opened st).slot = s.slot := by
    funext id
    rw [State.slot, hpool]
    rfl
  have hsub : ∀ i ∈ ids, i ∈ g.entries := ((List.forall₂_and_left _ _).1 (LinesJoin.filled h)).1
  refine ⟨?_, ?_, fun i hi => ?_, ids, ?_, fun i _ hi => ?_, ?_⟩
  · rw [LinesJoin.group h, hlength, hpool]
  · rw [LinesJoin.free h, hlength, hpool]
  · rw [← hslot, ← LinesJoin.other h i fun hi' => hi (hsub i hi')]
    rfl
  · rw [LinesJoin.queue h, hqueue, h.ref]
  · rw [← hslot, ← LinesJoin.other h i hi]
    rfl
  · refine (LinesJoin.filled h).imp fun i l ⟨hi, hfill⟩ => ⟨hi, hfill.trans ?_⟩
    simp only [State.joinedSlot, slotFor_opened, h.ref, hslot]

theorem TakesLines.groups (h : TakesLines s t st r g ids) : t.groups = { s.groups with
    opens := setV s.groups.opens st (some g)
    nextGroup := if s.openGroup? st = none then s.groups.nextGroup + 1 else s.groups.nextGroup
    nextRef := if s.openGroup? st = none then s.groups.nextRef + 1 else s.groups.nextRef } := by
  rw [LinesJoin.groups h, opened_eq]
  simp only [setV_setV]

theorem TakesLines.entryNew (h : TakesLines s t st r g ids) {l : Line} (hl : l ∈ s.newLines st r) :
    ∃ id ∈ g.entries, t.entry l = some (entryTaken (s.entry l) l st id) ∧ (t.slot id).map (·.line) = some l := by
  have hentry : (s.opened st).entry l = s.entry l := by rw [opened_eq]; rfl
  rw [← linesWithout_opened] at hl
  rw [← hentry]
  exact LinesJoin.entryNew h l hl

theorem TakesLines.entryOld (h : TakesLines s t st r g ids) {l : Line} (hl : l ∉ s.newLines st r) : t.entry l = s.entry l := by
  rw [← linesWithout_opened] at hl
  rw [LinesJoin.entryOld h l hl, opened_eq]
  rfl

theorem TakesLines.frame (h : TakesLines s t st r g ids) : t = { s with
    groups := t.groups, pool := t.pool, index := t.index, journal := { s.journal with queue := t.journal.queue }
    holds := setV s.holds st none } := by
  have hframe := LinesJoin.frame h
  rw [opened_eq] at hframe
  exact hframe

/-- Each visited line queues one record (R105). -/
theorem TakesLines.length_queue (h : TakesLines s t st r g ids) :
    t.journal.queue.length = s.journal.queue.length + r.visited.length := by
  rw [LinesJoin.queue h, List.length_append, List.length_map, (LinesJoin.filled h).length_eq, opened_eq]

theorem openGroup_length (s : State) (st : Stream) :
    (getV s.groups.opens st).toList.length + bit (s.openGroup? st).isNone = 1 := by
  unfold State.openGroup?
  cases getV s.groups.opens st <;> rfl

/-- The write claims a ring position for each record, and one more with the group that it opens (R114). -/
theorem TakesLines.claims (h : TakesLines s t st r g ids) :
    t.claims = s.claims + r.visited.length + bit (s.openGroup? st).isNone := by
  have hcount := countP_setV s.groups.opens st (some g)
  have hone := openGroup_length s st
  have hopens : t.groups.opens = setV s.groups.opens st (some g) := by rw [h.groups]
  rw [Option.toList_some, List.length_singleton] at hcount
  simp only [State.claims, State.openCount, hopens, h.length_queue]
  omega

/-- A commit write queues one more record, and its group is no longer OPEN. -/
theorem TakesLines.claims_sealed {u : State} (h : TakesLines s t st r g ids)
    (hqueue : u.journal.queue.length = t.journal.queue.length + 1) (hopens : u.groups.opens = setV s.groups.opens st none) :
    u.claims = s.claims + r.visited.length + bit (s.openGroup? st).isNone := by
  have hcount := countP_setV s.groups.opens st none
  have hone := openGroup_length s st
  rw [Option.toList_none, List.length_nil] at hcount
  simp only [State.claims, State.openCount, hopens, hqueue, h.length_queue]
  omega

end

end Sys2Proof.Machine
end

section
/-! A write is taken (O13) and a commit write seals its group (O14). -/

namespace Sys2Proof.Machine

set_option Elab.async false

/-! ### A write is taken (R58) -/

/-- The examination of a write that is taken: its lines join, and it is answered or seals its group. -/
theorem exec_take {s : State} {c : Instr} {st : Stream} {p : Place} {commit : Bool} (hlive : Live s) (hex : Examines s c st p)
    (htaken : TakenAt s st p.request commit) : exec c s = .next (if commit
      then ((s.clearOut.opened st).takeLines st p.request).sealGroup st p.index p.request.tag
      else ((s.clearOut.opened st).takeLines st p.request).makeReady st p.index (.ok [])).finish := by
  rw [exec_of_examines hlive.1 hex, classify_of_takenAt htaken]
  simp only [State.act, State.takeWrite, endHold_paid]
  rfl

/-- The lines that have joined, seen from the state before the event. -/
theorem takes_clearOut {s : State} {st : Stream} {r : Request} {commit : Bool} (hslots : FreeListLaw s) (hindex : IndexLaw s)
    (htaken : TakenAt s st r commit) :
    ∃ g ids, TakesLines s.clearOut ((s.clearOut.opened st).takeLines st r) st r g ids :=
  takesLines_takeLines (s := s.clearOut) hslots hindex htaken

/-- What the joining of the lines leaves unchanged. -/
theorem TakesLines.becomes {s u : State} {st : Stream} {r : Request} {g : Group} {ids : List SlotId}
    (h : TakesLines s.clearOut u st r g ids) (ports : Vector StreamPort 8) : Becomes { u with ports := ports } { s with
      groups := u.groups, pool := u.pool, index := u.index, journal := { s.journal with queue := u.journal.queue }
      holds := setV s.holds st none, ports := ports } := by
  rw [h.frame]
  rfl

/-- A response made ready that ends an event whose outputs and ports were untouched so far. -/
theorem makeReady_finish {s u : State} {st : Stream} {p : Place} (x : Status) (hlive : Live s)
    (hmem : p ∈ (getV s.ports st).places) (hports : u.ports = s.ports) (hout : u.out = Outputs.none) :
    Answered (u.makeReady st p.index x).finish st p x
      ∧ Settles s (u.makeReady st p.index x).finish st (Place.answer p.index x)
      ∧ (u.makeReady st p.index x).finish.out.issued = none := by
  refine ⟨makeReady_answered (by rwa [hports]), settles_finish hlive.2 ?_ ?_, ?_⟩
  · rw [State.makeReady, State.updatePlace, hports]
    rfl
  · show u.out.responses = []
    rw [hout]; rfl
  · rw [finish_issued]
    show u.out.issued = none
    rw [hout]; rfl

/-- Settles O13: the write's lines join and its response is OK. -/
theorem writeIsTaken : Obligations.WriteIsTaken := by
  unfold Obligations.WriteIsTaken
  intro s c st p hlive hslots hindex hex htaken
  have hexec := exec_take hlive hex htaken
  obtain ⟨g, ids, htakes⟩ := takes_clearOut hslots hindex htaken
  rw [if_neg Bool.false_ne_true] at hexec
  have hframe := htakes.frame
  generalize (s.clearOut.opened st).takeLines st p.request = u at hexec htakes hframe
  have hports : u.ports = s.ports := by rw [hframe]; rfl
  have hout : u.out = Outputs.none := by rw [hframe]; rfl
  obtain ⟨hanswered, hsettles, hissued⟩ := makeReady_finish (.ok []) hlive (examines_mem hex) hports hout
  refine ⟨_, hexec, hanswered, hsettles, hissued, ⟨g, ?_, ?_⟩, fun l hl => ?_, fun l hl => ?_, ?_, ?_⟩
  · simp only [State.finish_keeps, State.makeReady_keeps]
    exact htakes.groups
  · simp only [State.finish_keeps, State.makeReady_keeps]
    exact htakes.joined
  · obtain ⟨id, hid, hentry, hline⟩ := htakes.entryNew hl
    simp only [State.entry, State.slot, State.finish_keeps, State.makeReady_keeps]
    exact ⟨_, id, hentry, rfl, rfl, hline, rfl, rfl⟩
  · simp only [State.entry, State.finish_keeps, State.makeReady_keeps]
    exact htakes.entryOld hl
  · simp only [State.claims, State.openCount, State.finish_keeps, State.makeReady_keeps]
    exact htakes.claims
  · refine (becomes_finish _).trans ?_
    simp only [State.finish_keeps, State.makeReady_keeps]
    exact htakes.becomes _

/-- The OPEN group `g` of the stream has sealed by the write in place `p` (R4, R29, R87). -/
def State.sealsAt (s : State) (st : Stream) (g : Group) (p : Place) : State :=
  State.updatePlace { s with
    groups := { s.groups with
      opens := setV s.groups.opens st none
      pipeline := s.groups.pipeline ++ [{ g with state := .sealing, commitResponse := some ⟨st, p.request.tag⟩ }] }
    index := s.index.map fun e => e.seal g.entries
    journal := { s.journal with queue := s.journal.queue ++ [{ kind := .commit, group := g.ref }] } } st p.index
      fun q => { q with phase := .withheld g.ref }

theorem sealGroup_eq {s : State} {st : Stream} {g : Group} (p : Place) (hg : s.openGroup? st = some g) :
    s.sealGroup st p.index p.request.tag = s.sealsAt st g p := by
  simp only [State.sealGroup, hg]
  rfl

/-- The groups after the write has joined and sealed its group. -/
theorem TakesLines.sealsAt_groups {s u : State} {st : Stream} {r : Request} {g : Group} {ids : List SlotId}
    (h : TakesLines s.clearOut u st r g ids) (p : Place) : (u.sealsAt st g p).groups = { s.groups with
      opens := setV s.groups.opens st none
      pipeline := s.groups.pipeline ++ [{ g with state := .sealing, commitResponse := some ⟨st, p.request.tag⟩ }]
      nextGroup := if s.openGroup? st = none then s.groups.nextGroup + 1 else s.groups.nextGroup
      nextRef := if s.openGroup? st = none then s.groups.nextRef + 1 else s.groups.nextRef } := by
  simp only [State.sealsAt, State.updatePlace_keeps]
  rw [h.groups]
  simp only [setV_setV]
  rfl

theorem TakesLines.sealsAt_becomes {s u : State} {st : Stream} {r : Request} {g : Group} {ids : List SlotId}
    (h : TakesLines s.clearOut u st r g ids) (p : Place) : Becomes (u.sealsAt st g p) { s with
      groups := (u.sealsAt st g p).groups, pool := (u.sealsAt st g p).pool, index := (u.sealsAt st g p).index
      holds := setV s.holds st none
      journal := { s.journal with queue := u.journal.queue ++ [{ kind := .commit, group := g.ref }] }
      ports := (s.updatePlace st p.index fun q => { q with phase := .withheld g.ref }).ports } := by
  rw [h.frame]
  rfl

theorem seal_line (e : IndexEntry) (ids : List SlotId) : (e.seal ids).line = e.line := by
  unfold IndexEntry.seal
  split
  · rfl
  · split <;> rfl

/-- A seal changes each entry where it stands. -/
theorem indexFind_seal (index : List IndexEntry) (ids : List SlotId) (l : Line) :
    indexFind (index.map fun e => e.seal ids) l = (indexFind index l).map fun e => e.seal ids := by
  simp only [indexFind, List.find?_map, Function.comp_def, seal_line]

theorem seal_of_mem {e : IndexEntry} {id : SlotId} {ids : List SlotId} (he : e.openPart = some id) (hid : id ∈ ids) :
    e.seal ids = { e with unsealedPart := e.unsealedPart ++ [id], openPart := none } := by
  unfold IndexEntry.seal
  rw [he]
  exact if_pos (List.contains_iff_mem.2 hid)

theorem seal_eq (e : IndexEntry) (ids : List SlotId) : e.seal ids = match e.openPart with
    | none => e
    | some id => if id ∈ ids then { e with unsealedPart := e.unsealedPart ++ [id], openPart := none } else e := by
  cases he : e.openPart with
  | none => simp only [IndexEntry.seal, he]
  | some id =>
    by_cases hid : id ∈ ids
    · rw [seal_of_mem he hid]
      exact (if_pos hid).symm
    · simp only [IndexEntry.seal, he, List.contains_iff_mem, hid, if_false]

/-- Settles O14: the write's lines join and its group seals in the same event. -/
theorem commitWriteSealsItsGroup : Obligations.CommitWriteSealsItsGroup := by
  unfold Obligations.CommitWriteSealsItsGroup
  intro s c st p hlive hslots hindex hex htaken
  have hexec := exec_take hlive hex htaken
  obtain ⟨g, ids, htakes⟩ := takes_clearOut hslots hindex htaken
  rw [if_pos rfl] at hexec
  have hframe := htakes.frame
  generalize (s.clearOut.opened st).takeLines st p.request = u at hexec htakes hframe
  have hports : u.ports = s.ports := by rw [hframe]; rfl
  have hout : u.out = Outputs.none := by rw [hframe]; rfl
  have hg : u.openGroup? st = some g := by
    rw [State.openGroup?, htakes.groups]
    exact getV_setV_same ..
  rw [sealGroup_eq _ hg] at hexec
  have hquiet : NoReadyFront (u.sealsAt st g p) := by
    refine noReadyFront_updatePlace (noReadyFront_of_ports hlive.2 hports) st p.index _ fun q x => ?_
    exact fun h => by cases h
  have hout' := (out_finish_quiet hquiet).trans hout
  have hbecomes := becomes_finish_quiet hquiet
  obtain ⟨-, -, -, -, -, hgroups, hpool, hindex', -, hjournal, -, -, -, -, -, -⟩ := hbecomes.fields
  have hsealed := htakes.sealsAt_groups p
  generalize (u.sealsAt st g p).finish = t at *
  have hentry (l : Line) : t.entry l = (u.entry l).map fun e => e.seal g.entries := by
    rw [State.entry, hindex']
    exact indexFind_seal ..
  refine ⟨t, hexec, hout', g, u.journal.queue, ?_, hgroups.trans hsealed, fun l hl => ?_, fun l hl => ?_, ?_, ?_⟩
  · rw [hpool]
    exact htakes.joined
  · obtain ⟨id, hid, hnew, hline⟩ := htakes.entryNew hl
    refine ⟨_, id, (hentry l).trans (by rw [hnew, Option.map_some]), ?_⟩
    rw [seal_of_mem rfl hid]
    exact ⟨rfl, rfl, by rw [State.slot, hpool]; exact hline, hid, rfl, rfl⟩
  · rw [hentry, htakes.entryOld hl]
    exact congrArg (fun f => (s.entry l).map f) (funext fun e => seal_eq e g.entries)
  · refine htakes.claims_sealed ?_ ?_
    · rw [hjournal]
      exact List.length_append
    · rw [hgroups, hsealed]
      rfl
  · refine hbecomes.trans ?_
    rw [hgroups, hpool, hindex']
    exact htakes.sealsAt_becomes p

end Sys2Proof.Machine
end

section
/-! SUPPORT. The law of the Line Index and the law of the fault record under one operation after another (R24 to R26, R162). -/

namespace Sys2Proof.Machine

set_option Elab.async false

/-! ### The Line Index under a change of each entry -/

/-- A change of each entry that moves no entry to another line keeps the line order. -/
theorem sorted_map {f : IndexEntry → IndexEntry} (hline : ∀ e, (f e).line = e.line) {index : List IndexEntry}
    (h : IndexSorted index) : IndexSorted (index.map f) :=
  List.pairwise_map.2 (h.imp fun hlt => by simpa [hline] using hlt)

/-- A change of each entry that keeps its line and its law keeps the index law. -/
theorem indexLaw_map {s t : State} {f : IndexEntry → IndexEntry} (hline : ∀ e, (f e).line = e.line)
    (hentry : ∀ e, EntryLaw e → EntryLaw (f e)) (hs : IndexLaw s) (ht : t.index = s.index.map f) : IndexLaw t := by
  obtain ⟨hsorted, hlaw⟩ := hs
  unfold IndexLaw
  rw [ht]
  exact ⟨sorted_map hline hsorted, List.forall_mem_map.2 fun e he => hentry e (hlaw e he)⟩

/-- Where the entries left empty are removed, a change need only keep the lines and the owners' law. -/
theorem indexLaw_indexUpdate {s t : State} {f : IndexEntry → IndexEntry} (hline : ∀ e, (f e).line = e.line)
    (howner : ∀ e, EntryLaw e → (f e).owner.isSome = (!(f e).unsealedPart.isEmpty || (f e).openPart.isSome))
    (hs : IndexLaw s) (ht : t.index = indexUpdate f s.index) : IndexLaw t := by
  obtain ⟨hsorted, hlaw⟩ := hs
  unfold IndexLaw
  rw [ht]
  refine ⟨(sorted_map hline hsorted).filter _, fun e he => ?_⟩
  obtain ⟨⟨e', he', rfl⟩, hsome⟩ := mem_indexUpdate.1 he
  exact ⟨hsome, howner e' (hlaw e' he')⟩

/-- A version that is sealed stands in the unsealed part instead of the open part (R29). -/
theorem entryLaw_seal (ids : List SlotId) {e : IndexEntry} (h : EntryLaw e) : EntryLaw (e.seal ids) := by
  unfold IndexEntry.seal
  split
  · exact h
  · rename_i id hopen
    split
    · obtain ⟨-, howner⟩ := h
      exact ⟨by simp [IndexEntry.isEmpty], by simp [howner, hopen]⟩
    · exact h

theorem becomeSealed_line (e : IndexEntry) (ids : List SlotId) : (e.becomeSealed ids).line = e.line := by
  simp only [IndexEntry.becomeSealed]
  split <;> rfl

/-- An entry whose versions become SEALED loses its owner exactly when nothing unsealed or open is left (R30). -/
theorem entryLaw_becomeSealed (ids : List SlotId) {e : IndexEntry} (h : EntryLaw e) : EntryLaw (e.becomeSealed ids) := by
  simp only [IndexEntry.becomeSealed]
  split
  · exact h
  · rename_i hmoved
    have hunsealed : e.unsealedPart.isEmpty = false := by
      rw [List.isEmpty_eq_false_iff]
      intro hnil
      simp [hnil] at hmoved
    have howner : e.owner.isSome = true := by simpa [hunsealed] using h.2
    constructor
    · rw [List.isEmpty_iff] at hmoved
      simp only [IndexEntry.isEmpty, Bool.and_eq_false_iff, List.isEmpty_eq_false_iff]
      exact .inl (.inl (List.append_ne_nil_of_right_ne_nil _ hmoved))
    dsimp only
    generalize (e.unsealedPart.filter fun id => !ids.contains id) = kept
    cases hkept : kept.isEmpty <;> cases hopen : e.openPart <;> simp [howner]

/-- A discarded version leaves the open part, and with nothing unsealed the owner goes too (R32). -/
theorem discard_owner_law (ids : List SlotId) {e : IndexEntry} (h : EntryLaw e) :
    (e.discard ids).owner.isSome = (!(e.discard ids).unsealedPart.isEmpty || (e.discard ids).openPart.isSome) := by
  obtain ⟨-, howner⟩ := h
  unfold IndexEntry.discard
  split
  · exact howner
  · rename_i id hopen
    split
    · cases hunsealed : e.unsealedPart.isEmpty <;> simp_all
    · exact howner

/-- A version that joins the open part brings the owner (R28). -/
theorem entryLaw_indexTake {l : Line} {st : Stream} {id : SlotId} {index : List IndexEntry} (h : ∀ e ∈ index, EntryLaw e) :
    ∀ e ∈ indexTake l st id index, EntryLaw e := by
  have hopened (e : IndexEntry) : EntryLaw { e with owner := some st, openPart := some id } :=
    ⟨by simp [IndexEntry.isEmpty], by simp⟩
  have hnew : EntryLaw { line := l, owner := some st, sealedPart := [], unsealedPart := [], openPart := some id } :=
    ⟨rfl, rfl⟩
  induction index with
  | nil => simpa [indexTake] using hnew
  | cons e rest ih =>
    obtain ⟨hhead, htail⟩ := List.forall_mem_cons.1 h
    unfold indexTake
    split
    · exact List.forall_mem_cons.2 ⟨hopened e, htail⟩
    · split
      · exact List.forall_mem_cons.2 ⟨hnew, h⟩
      · exact List.forall_mem_cons.2 ⟨hhead, ih htail⟩

/-! ### The two laws together -/

/-- What the law of the fault record reads of Engine Control. -/
def EngineControl.record (e : EngineControl) :
    EngineState × Option FaultCause × List FaultCause × Option EngineState × Bool :=
  (e.state, e.firstCause, e.causes, e.returnState, e.quiescePending)

/-- The law of the Line Index and that of the fault record pass from `s` to `t`, each without the other. -/
structure KeepsLaws (s t : State) : Prop where
  index : IndexLaw s → IndexLaw t
  record : FaultRecordLaw s → FaultRecordLaw t

theorem KeepsLaws.refl (s : State) : KeepsLaws s s := ⟨id, id⟩

theorem KeepsLaws.trans {s t u : State} (h : KeepsLaws s t) (h' : KeepsLaws t u) : KeepsLaws s u :=
  ⟨h'.index ∘ h.index, h'.record ∘ h.record⟩

theorem indexLaw_congr {s t : State} (h : t.index = s.index) (hs : IndexLaw s) : IndexLaw t := by
  unfold IndexLaw
  rwa [h]

theorem faultRecordLaw_congr {s t : State} (h : t.engine.record = s.engine.record) (hs : FaultRecordLaw s) :
    FaultRecordLaw t := by
  simp only [EngineControl.record, Prod.mk.injEq] at h
  obtain ⟨hstate, hfirst, hcauses, hreturn, hpending⟩ := h
  unfold FaultRecordLaw at hs ⊢
  rwa [hstate, hfirst, hcauses, hreturn, hpending]

/-- An operation that changes neither the index nor what the law reads of Engine Control. -/
theorem KeepsLaws.same {s t : State} (hi : t.index = s.index := by simp)
    (he : t.engine.record = s.engine.record := by simp [EngineControl.record]) : KeepsLaws s t :=
  ⟨indexLaw_congr hi, faultRecordLaw_congr he⟩

/-- An operation on the index. -/
theorem KeepsLaws.of_index {s t : State} (hi : IndexLaw s → IndexLaw t) (he : t.engine = s.engine := by simp) :
    KeepsLaws s t := ⟨hi, faultRecordLaw_congr (congrArg _ he)⟩

/-- An operation on Engine Control. -/
theorem KeepsLaws.of_record {s t : State} (he : FaultRecordLaw s → FaultRecordLaw t) (hi : t.index = s.index := by simp) :
    KeepsLaws s t := ⟨indexLaw_congr hi, he⟩

/-- An operation that ends in FAULTED. -/
theorem KeepsLaws.of_faulted {s t : State} (he : t.engine.state = .faulted) (hi : t.index = s.index := by simp) :
    KeepsLaws s t := .of_record (fun _ hne => absurd he hne) hi

/-- The fault record is empty. -/
def EngineControl.NoFault (e : EngineControl) : Prop :=
  e.firstCause = none ∧ e.causes = [] ∧ e.returnState = none ∧ e.quiescePending = false

/-- An operation that empties the fault record. -/
theorem KeepsLaws.of_noFault {s t : State} (he : t.engine.NoFault) (hi : t.index = s.index := by simp) : KeepsLaws s t :=
  .of_record (fun _ _ => he) hi

/-- An index without entries meets its law. -/
theorem indexLaw_empty {s : State} (h : s.index = []) : IndexLaw s := by
  unfold IndexLaw
  rw [h]
  exact ⟨.nil, fun e he => absurd he List.not_mem_nil⟩

/-! ### Takes, seals, discards and retires -/

theorem keepsLaws_takeLine (s : State) (st : Stream) (l : Line) (cells : List (Option Byte)) :
    KeepsLaws s (s.takeLine st l cells) := by
  refine .of_index fun hs => ?_
  unfold State.takeLine
  split
  · exact hs
  · split
    · exact hs
    · exact hs
    · exact ⟨sorted_indexTake l st _ hs.1, entryLaw_indexTake hs.2⟩

theorem keepsLaws_takeLines (s : State) (st : Stream) (r : Request) : KeepsLaws s (s.takeLines st r) := by
  unfold State.takeLines
  generalize r.visited = lines
  induction lines generalizing s with
  | nil => exact .refl s
  | cons l ls ih => exact (keepsLaws_takeLine s st l _).trans (ih _)

theorem keepsLaws_sealGroup (s : State) (st : Stream) (i tag : Fin 4) : KeepsLaws s (s.sealGroup st i tag) := by
  refine .of_index fun hs => ?_
  unfold State.sealGroup
  split
  · exact hs
  · exact indexLaw_map (fun e => seal_line e _) (fun _ => entryLaw_seal _) hs rfl

theorem keepsLaws_takeWrite (s : State) (st : Stream) (p : Place) (commit : Bool) : KeepsLaws s (s.takeWrite st p commit) := by
  have hopen : KeepsLaws s
      (if ((s.endHold st).openGroup? st).isSome then s.endHold st else (s.endHold st).openGroup st) := by
    split
    · exact .same
    · exact .same
  have hjoin := hopen.trans (keepsLaws_takeLines _ st p.request)
  unfold State.takeWrite
  split
  · exact hjoin.trans (keepsLaws_sealGroup _ st p.index p.request.tag)
  · exact hjoin.trans .same

theorem keepsLaws_discardGroup (s : State) (st : Stream) (g : Group) (reason : DiscardReason) :
    KeepsLaws s (s.discardGroup st g reason) :=
  .of_index fun hs => indexLaw_indexUpdate (fun e => discard_line e _) (fun _ => discard_owner_law _) hs rfl

theorem keepsLaws_discardOpenGroup (s : State) (st : Stream) (reason : DiscardReason) :
    KeepsLaws s (s.discardOpenGroup st reason) := by
  unfold State.discardOpenGroup
  split
  · exact .refl s
  · rename_i g _
    exact (keepsLaws_discardGroup s st g reason).trans .same

theorem keepsLaws_sealedEvent (s : State) (ref : Nat) : KeepsLaws s (s.sealedEvent ref) := by
  refine .of_index fun hs => ?_
  unfold State.sealedEvent
  split
  · exact hs
  · exact indexLaw_map (fun e => becomeSealed_line e _) (fun _ => entryLaw_becomeSealed _) hs rfl

/-- A retire takes versions from the sealed part alone (R31). -/
theorem keepsLaws_retire (s : State) (g : Group) : KeepsLaws s (s.retire g) :=
  .of_index fun hs => indexLaw_indexUpdate (f := fun e => e.retire g.entries) (fun _ => rfl) (fun _ h => h.2) hs
    (by simp [State.retire])

/-! ### Faults and CLEAR_FAULT (R163, R165, R166) -/

theorem failClear_engine (s : State) : s.failClear.engine = { s.engine with clear := none } := by
  simp [State.failClear]

theorem keepsLaws_failClear (s : State) : KeepsLaws s s.failClear := .same (he := by rw [failClear_engine]; rfl)

theorem enterFaulted_state (s : State) (c : FaultCause) (answered : Option CheckpointRequest) :
    (s.enterFaulted c answered).engine.state = .faulted := by
  unfold State.enterFaulted
  simp only [allStreams, List.foldl]
  split <;> simp

/-- After a report the engine is FAULTED. -/
theorem report_state (s : State) (c : FaultCause) (answered : Option CheckpointRequest) :
    (s.report c answered).engine.state = .faulted := by
  simp only [State.report]
  split
  · split
    · assumption
    · split
      · rwa [failClear_engine]
      · assumption
  · exact enterFaulted_state s c answered

theorem keepsLaws_report (s : State) (c : FaultCause) (answered : Option CheckpointRequest) :
    KeepsLaws s (s.report c answered) := .of_faulted (report_state s c answered)

theorem keepsLaws_dropCause (s : State) (c : FaultCause) : KeepsLaws s (s.dropCause c) := by
  refine .of_record fun hs hne => ?_
  obtain ⟨hfirst, hcauses, hreturn, hpending⟩ := hs hne
  exact ⟨hfirst, by simp [State.dropCause, hcauses], hreturn, hpending⟩

theorem finishClear_noFault (s : State) (answered : Option CheckpointRequest) : (s.finishClear answered).engine.NoFault := by
  simp only [State.finishClear]
  split <;> simp [EngineControl.NoFault]

theorem keepsLaws_finishClear (s : State) (answered : Option CheckpointRequest) : KeepsLaws s (s.finishClear answered) :=
  .of_noFault (finishClear_noFault s answered)

theorem keepsLaws_anchorStep (s : State) : KeepsLaws s s.anchorStep := by
  unfold State.anchorStep
  split
  · exact .same
  · exact (keepsLaws_dropCause s _).trans (keepsLaws_finishClear _ none)

theorem keepsLaws_startAttempt (s : State) (a : ApplyRecord) : KeepsLaws s (s.startAttempt a) := .same (he := rfl)

theorem keepsLaws_applyStep (s : State) : KeepsLaws s s.applyStep := by
  unfold State.applyStep
  split
  · split
    · exact (keepsLaws_dropCause s _).trans (keepsLaws_anchorStep _)
    · split
      · exact keepsLaws_startAttempt s _
      · exact .same
  · exact keepsLaws_anchorStep s

theorem keepsLaws_journalStep (s : State) : KeepsLaws s s.journalStep := by
  unfold State.journalStep
  split
  · split
    · exact (keepsLaws_dropCause s _).trans (keepsLaws_applyStep _)
    · exact .same
  · exact keepsLaws_applyStep s

theorem keepsLaws_continueClear (s : State) : KeepsLaws s s.continueClear := by
  unfold State.continueClear
  split
  · exact .refl s
  · split
    · exact (keepsLaws_dropCause s _).trans (keepsLaws_applyStep _)
    · exact .refl s
  · split
    · exact (keepsLaws_dropCause s _).trans (keepsLaws_anchorStep _)
    · split
      · exact keepsLaws_startAttempt s _
      · exact .refl s
  · exact .refl s

/-! ### Answers to checkpoint requests -/

theorem keepsLaws_activate (s : State) : KeepsLaws s s.activate := .same (he := rfl)

/-- In FAULTED only the return state changes; elsewhere the record is empty and stays so. -/
theorem keepsLaws_enterOnSuccess (s : State) (target : EngineState) : KeepsLaws s (s.enterOnSuccess target) := by
  unfold State.enterOnSuccess
  split
  · rename_i hfaulted
    exact .of_faulted hfaulted
  · rename_i hne
    exact .of_record fun hs _ => hs hne

theorem keepsLaws_answerRequest (s : State) (r : CheckpointRequest) : KeepsLaws s (s.answerRequest r) := by
  cases r with
  | quiesce => exact (keepsLaws_enterOnSuccess s .quiesced).trans (.same (he := by simp [State.answerRequest]))
  | resume =>
    exact ((keepsLaws_activate s).trans (keepsLaws_enterOnSuccess _ .online)).trans (.same (he := by simp [State.answerRequest]))
  | recovery => exact (keepsLaws_enterOnSuccess s .online).trans (.same (he := by simp [State.answerRequest]))

theorem keepsLaws_answer (s : State) (r : Option CheckpointRequest) : KeepsLaws s (r.elim s s.answerRequest) := by
  cases r with
  | none => exact .refl s
  | some r => exact keepsLaws_answerRequest s r

/-! ### Clearings and drains (R144, R160, R171) -/

theorem keepsLaws_restartClearing (s : State) : KeepsLaws s s.restartClearing :=
  .of_index (fun _ => indexLaw_empty rfl) rfl

theorem keepsLaws_beginFormat (s : State) (w : FormatWork) : KeepsLaws s (s.beginFormat w) := .same (he := rfl)

/-- FORMAT's clearing empties the cause set, with the rest of the record as it was. -/
theorem keepsLaws_formatClearing (s : State) (w : FormatWork) : KeepsLaws s (s.formatClearing w) := by
  have hclear (n : Word) : KeepsLaws s { s.clearBlocks with
      engine := { s.clearBlocks.engine with causes := [] }, ckpt := { s.clearBlocks.ckpt with retiredThrough := n } } := by
    refine ⟨fun _ => indexLaw_empty rfl, fun hs hne => ?_⟩
    obtain ⟨hfirst, -, hreturn, hpending⟩ := hs hne
    exact ⟨hfirst, rfl, hreturn, hpending⟩
  simp only [State.formatClearing]
  split
  · exact (hclear 0).trans .same
  · exact (hclear 0).trans (keepsLaws_beginFormat _ w)

theorem keepsLaws_drainCheck (s : State) : KeepsLaws s s.drainCheck := by
  unfold State.drainCheck
  split
  · split
    · exact keepsLaws_formatClearing s _
    · exact keepsLaws_restartClearing s
  · exact .refl s

theorem keepsLaws_beginDrain (s : State) : KeepsLaws s s.beginDrain :=
  KeepsLaws.trans .same (keepsLaws_drainCheck _)

end Sys2Proof.Machine
end

section
/-! SUPPORT. The same two laws under grants, completions, recovery and commands. -/

namespace Sys2Proof.Machine

set_option Elab.async false

/-! ### Grants -/

theorem issueRewrite_record (s : State) : s.issueRewrite.engine.record = s.engine.record := by
  unfold State.issueRewrite
  split <;> rfl

theorem keepsLaws_grant (s : State) : KeepsLaws s s.grant := by
  refine .same (he := ?_)
  unfold State.grant
  split
  · rfl
  · rename_i r byRotation _
    cases r with
    | journalWriter =>
      dsimp only [State.grantTo]
      split
      · simp
      · simp [issueRewrite_record]
    | applyEngine => simp [State.grantTo]
    | requestPath => simp [State.grantTo]
    | serviceEngine =>
      dsimp only [State.grantTo]
      cases (s.movePointer .serviceEngine byRotation).presentedWork <;> simp

/-! ### Completions of the Journal Writer, the Apply Engine and the Checkpoint Logic -/

theorem keepsLaws_recordDurable (s : State) (r : IssuedRecord) : KeepsLaws s (s.recordDurable r) := by
  unfold State.recordDurable
  dsimp only
  split
  · exact KeepsLaws.trans .same (keepsLaws_sealedEvent _ r.group)
  · exact .same

theorem keepsLaws_recordOk (s : State) : KeepsLaws s s.recordOk := by
  unfold State.recordOk
  split
  · exact .refl s
  · rename_i r rest _
    have hleft : KeepsLaws s { s with journal := { s.journal with outstanding := rest } } := .same
    exact ((hleft.trans (keepsLaws_recordDurable _ r)).trans .same).trans (keepsLaws_continueClear _)

theorem keepsLaws_recordFailed (s : State) : KeepsLaws s s.recordFailed := by
  refine ⟨indexLaw_congr (by simp), ?_⟩
  unfold State.recordFailed
  split
  · exact id
  · exact fun _ hne => absurd (report_state _ _ _) hne

theorem keepsLaws_rewriteDone (s : State) (st : MemStatus) : KeepsLaws s (s.rewriteDone st) := by
  unfold State.rewriteDone
  split
  · exact .refl s
  · rename_i r rest _
    have hleft (u : State) (hi : u.index = s.index) (he : u.engine.record = s.engine.record) :
        KeepsLaws s (u.recordDurable r).continueClear :=
      ((KeepsLaws.same hi he).trans (keepsLaws_recordDurable u r)).trans (keepsLaws_continueClear _)
    dsimp only
    split
    · exact hleft _ rfl rfl
    · exact hleft _ rfl rfl
  · split
    · exact keepsLaws_failClear s
    · exact .refl s

theorem keepsLaws_homeWriteOk (s : State) : KeepsLaws s s.homeWriteOk := by
  unfold State.homeWriteOk
  split
  · exact .refl s
  · rename_i a _
    refine KeepsLaws.trans ?_ (keepsLaws_continueClear _)
    generalize (if a.stopped = true then a.acked else a.acked + 1) = acked
    split
    · exact KeepsLaws.trans .same (keepsLaws_retire _ _)
    · exact .same

theorem keepsLaws_homeWriteFailed (s : State) : KeepsLaws s s.homeWriteFailed := by
  unfold State.homeWriteFailed
  split
  · exact .refl s
  · rename_i a _
    refine KeepsLaws.trans ?_ (keepsLaws_continueClear _)
    split
    · exact .same
    · split
      · exact KeepsLaws.trans .same (keepsLaws_failClear _)
      · exact KeepsLaws.trans .same (keepsLaws_report _ .applyWrite none)

theorem keepsLaws_firstHalfDone (s : State) (rewrite : Bool) (st : MemStatus) : KeepsLaws s (s.firstHalfDone rewrite st) := by
  unfold State.firstHalfDone
  split
  · split
    · exact .refl s
    · split
      · dsimp only
        split
        · exact KeepsLaws.trans .same (keepsLaws_failClear _)
        · exact .same
      · exact .same
  · exact .same

/-- A landed checkpoint answers its request, and then the distance trigger is evaluated. -/
theorem keepsLaws_answered {s u : State} (r : Option CheckpointRequest) (h : KeepsLaws s u) :
    KeepsLaws s (r.elim u u.answerRequest).distanceTrigger :=
  (h.trans (keepsLaws_answer u r)).trans .same

theorem keepsLaws_checkpointOk (s : State) : KeepsLaws s s.checkpointOk := by
  unfold State.checkpointOk
  split
  · exact .refl s
  · rename_i f _
    exact keepsLaws_answered f.answers .same

theorem keepsLaws_rewriteOk (s : State) : KeepsLaws s s.rewriteOk := by
  unfold State.rewriteOk
  split
  · exact .refl s
  · rename_i r _
    dsimp only
    split
    · exact (KeepsLaws.trans .same (keepsLaws_dropCause _ .checkpointWrite)).trans (keepsLaws_finishClear _ r.answers)
    · exact keepsLaws_answered r.answers .same

theorem keepsLaws_checkpointFailed (s : State) : KeepsLaws s s.checkpointFailed := by
  unfold State.checkpointFailed
  split
  · exact .refl s
  · rename_i f _
    exact KeepsLaws.trans .same (keepsLaws_report _ .checkpointWrite f.answers)

theorem keepsLaws_rewriteFailed (s : State) : KeepsLaws s s.rewriteFailed := by
  unfold State.rewriteFailed
  dsimp only
  split
  · exact KeepsLaws.trans .same (keepsLaws_failClear _)
  · exact .same

/-! ### Recovery -/

theorem keepsLaws_recoveryFault (s : State) (c : FaultCause) : KeepsLaws s (s.recoveryFault c) :=
  KeepsLaws.trans .same (keepsLaws_report _ c none)

theorem noAnchor_noFault (s : State) : s.noAnchor.engine.NoFault := by
  simp [State.noAnchor, EngineControl.NoFault]

theorem keepsLaws_chooseAnchors (s : State) : KeepsLaws s s.chooseAnchors := by
  unfold State.chooseAnchors
  split
  · split
    · exact .of_noFault (noAnchor_noFault s)
    · exact .same
  · exact .refl s

theorem keepsLaws_anchorReadDone (s : State) (c : Completion) : KeepsLaws s (s.anchorReadDone c) := by
  unfold State.anchorReadDone
  split
  · exact KeepsLaws.trans .same (keepsLaws_recoveryFault _ .recoveryRead)
  · exact KeepsLaws.trans .same (keepsLaws_chooseAnchors _)

theorem keepsLaws_scanDone (s : State) (seq : Word) (c : Completion) : KeepsLaws s (s.scanDone seq c) := by
  unfold State.scanDone
  split
  · dsimp only
    split
    · exact .same
    · exact .same
  · split
    · exact keepsLaws_recoveryFault s _
    · exact .same

theorem keepsLaws_countCheck (s : State) (p : Replay) : KeepsLaws s (s.countCheck p) := by
  unfold State.countCheck
  split
  · exact .refl s
  · split
    · dsimp only
      split
      · exact .same
      · exact .same
    · exact keepsLaws_recoveryFault s _

theorem keepsLaws_collectOn (s : State) (p : Replay) : KeepsLaws s (s.collectOn p) := by
  unfold State.collectOn
  dsimp only
  split
  · exact KeepsLaws.trans .same (keepsLaws_countCheck _ p)
  · exact .same

theorem keepsLaws_walkDone (s : State) (seq : Word) (c : Completion) : KeepsLaws s (s.walkDone seq c) := by
  unfold State.walkDone
  split
  · exact keepsLaws_recoveryFault s _
  · split
    · dsimp only
      split
      · exact KeepsLaws.trans .same (keepsLaws_collectOn _ _)
      · exact .same
    · exact .same
    · exact .same

theorem keepsLaws_collectDone (s : State) (seq : Word) (c : Completion) : KeepsLaws s (s.collectDone seq c) := by
  unfold State.collectDone
  split
  · dsimp only
    split
    · split
      · split
        · rename_i t ht
          rw [State.collectEntry_keeps ht]
          exact KeepsLaws.trans .same (keepsLaws_collectOn _ _)
        · exact keepsLaws_recoveryFault s _
      · exact keepsLaws_collectOn s _
    · exact keepsLaws_collectOn s _
    · exact keepsLaws_collectOn s _
  · exact keepsLaws_recoveryFault s _
  · exact .refl s

/-! ### Commands -/

theorem keepsLaws_offer {f : State → State} (hf : ∀ u, KeepsLaws u (f u)) (s : State) : KeepsLaws s (s.offer f) := by
  unfold State.offer
  split
  · exact .same
  · exact hf s

/-- QUIESCE is noted in a FAULTED engine, and leaves ONLINE with the record as it was (R167). -/
theorem keepsLaws_quiesce (s : State) : KeepsLaws s s.quiesce := by
  unfold State.quiesce
  split
  · rename_i honline
    have hmove : KeepsLaws s { s with engine := { s.engine with state := .quiescing } } :=
      .of_record fun hs _ => hs (by rw [honline]; decide)
    exact hmove.trans .same
  · exact .same
  · exact .same
  · rename_i hfaulted
    split
    · exact .of_faulted (by simpa using hfaulted)
    · exact .same
  · exact .same
  · exact .same

theorem keepsLaws_resume (s : State) : KeepsLaws s s.resume := by
  unfold State.resume
  split
  · split
    · exact .same
    · exact .same
  · exact .same

theorem keepsLaws_discardStream (x : State × List Line) (st : Stream) : KeepsLaws x.1 (State.discardStream x st).1 := by
  unfold State.discardStream
  split
  · exact .refl x.1
  · rename_i g _
    exact (keepsLaws_discardGroup x.1 st g .management).trans .same

theorem keepsLaws_discardStreams (sts : List Stream) (x : State × List Line) :
    KeepsLaws x.1 (sts.foldl State.discardStream x).1 := by
  induction sts generalizing x with
  | nil => exact .refl x.1
  | cons st sts ih => exact (keepsLaws_discardStream x st).trans (ih _)

theorem keepsLaws_discardOpen (s : State) : KeepsLaws s s.discardOpen := by
  unfold State.discardOpen
  split
  · dsimp only
    split
    · exact .same
    · exact (keepsLaws_discardStreams allStreams (s, [])).trans .same
  · exact .same

theorem keepsLaws_stageFromActive (s : State) : KeepsLaws s s.stageFromActive := by
  unfold State.stageFromActive
  split
  · exact .same
  · split
    · exact .same
    · exact .same

theorem keepsLaws_clearFault (s : State) : KeepsLaws s s.clearFault := by
  unfold State.clearFault
  split
  · exact KeepsLaws.trans .same (keepsLaws_journalStep _)
  · exact .same

/-- RESTART empties the record before the drain begins (R159). -/
theorem keepsLaws_restart (s : State) : KeepsLaws s s.restart := by
  have hempty : KeepsLaws s (State.retractAll ((s.abortRunningDigest.endCommand .aborted).takeRunning .restart)) := .same
  have hrestart (u : State) : KeepsLaws u { u with engine := u.engine.restart, service := { u.service with format := none } } :=
    .of_noFault ⟨rfl, rfl, rfl, rfl⟩
  exact (hempty.trans (hrestart _)).trans (keepsLaws_beginDrain _)

theorem keepsLaws_formatAccepted (s : State) (w : FormatWork) : KeepsLaws s (s.formatAccepted w) := by
  unfold State.formatAccepted
  split
  · exact KeepsLaws.trans .same (keepsLaws_beginDrain _)
  · dsimp only
    split
    · exact .same
    · exact KeepsLaws.trans .same (keepsLaws_beginFormat _ w)

theorem keepsLaws_format (s : State) : KeepsLaws s s.format := by
  unfold State.format
  dsimp only
  split
  · exact .same
  · split
    · exact .same
    · exact keepsLaws_formatAccepted s _

theorem formatDone_noFault (s : State) (w : FormatWork) : (s.formatDone w).engine.NoFault := by
  simp [State.formatDone, EngineControl.formatted, EngineControl.NoFault]

theorem formatFailed_noFault (s : State) : s.formatFailed.engine.NoFault := by
  simp [State.formatFailed, EngineControl.formatted, EngineControl.NoFault]

theorem keepsLaws_formatWriteDone (s : State) (st : MemStatus) : KeepsLaws s (s.formatWriteDone st) := by
  unfold State.formatWriteDone
  split
  · exact .refl s
  · exact .of_noFault (formatFailed_noFault s)
  · dsimp only
    split
    · exact .of_noFault (formatDone_noFault _ _)
    · exact .same

theorem keepsLaws_offerCode (s : State) (code : Byte) : KeepsLaws s (s.offerCode code) := by
  unfold State.offerCode
  split
  · exact keepsLaws_offer keepsLaws_quiesce s
  · exact keepsLaws_offer keepsLaws_resume s
  · exact keepsLaws_offer keepsLaws_discardOpen s
  · exact keepsLaws_offer keepsLaws_clearFault s
  · exact keepsLaws_restart s
  · exact keepsLaws_offer keepsLaws_format s
  · exact keepsLaws_offer (fun _ => .same) s
  · exact .same
  · exact keepsLaws_offer keepsLaws_stageFromActive s
  · exact keepsLaws_offer (f := (State.unknown · code)) (fun u => .same (t := u.answerAtOnce code .badArgument)) s

end Sys2Proof.Machine
end

section
/-! The law of the Line Index and the law of the fault record: every command keeps them (O57). -/

namespace Sys2Proof.Machine

set_option Elab.async false

/-! ### Examinations and frames -/

theorem keepsLaws_act (s : State) (st : Stream) (p : Place) (v : Verdict) : KeepsLaws s (s.act st p v) := by
  have hend : KeepsLaws s (s.endHold st) := .same
  have hdiscard (why : DiscardReason) := hend.trans (keepsLaws_discardOpenGroup (s.endHold st) st why)
  unfold State.act
  split
  · rename_i cancel
    have hcancel : KeepsLaws s (if cancel then (s.endHold st).discardOpenGroup st .cancel else s.endHold st) := by
      split
      · exact hdiscard .cancel
      · exact hend
    exact hcancel.trans (.same (t := State.updatePlace (State.handOver _ st p false) st p.index _))
  · exact .same
  · exact .same
  · exact .same
  · exact .same
  · rename_i why reason
    exact (hdiscard why).trans .same
  · exact keepsLaws_takeWrite s st p _

theorem keepsLaws_admitNext (s : State) (st : Stream) : KeepsLaws s (s.admitNext st) := by
  unfold State.admitNext
  split
  · exact .refl s
  · exact keepsLaws_act s st _ _

theorem keepsLaws_reExamine (s : State) (st : Stream) : KeepsLaws s (s.reExamine st) := by
  unfold State.reExamine
  split
  · exact .refl s
  · split
    · exact .same
    · exact KeepsLaws.trans .same (keepsLaws_act _ st _ _)

theorem keepsLaws_writeProfileData (s : State) (w : Fin 4) (v : Word) : KeepsLaws s (s.writeProfileData w v) := by
  unfold State.writeProfileData
  split
  · exact .refl s
  · exact .same

theorem keepsLaws_writeRegister (s : State) (n : BitVec 6) (v : Word) : KeepsLaws s (s.writeRegister n v) := by
  unfold State.writeRegister
  split
  · exact keepsLaws_offerCode s _
  · exact .same
  · exact .same
  · exact .same
  · exact .same
  · split
    · exact .same
    · exact .refl s
  · exact .same
  · exact .same
  · exact keepsLaws_writeProfileData s 0 v
  · exact keepsLaws_writeProfileData s 1 v
  · exact keepsLaws_writeProfileData s 2 v
  · exact keepsLaws_writeProfileData s 3 v
  · exact .refl s

theorem keepsLaws_completeFrame (s : State) (f : Frame) : KeepsLaws s (s.completeFrame f) := by
  unfold State.completeFrame
  dsimp only
  split
  · exact keepsLaws_writeRegister s _ _
  · split
    · exact .same
    · exact .refl s

theorem keepsLaws_clockInto (s : State) (f : Frame) (mosi : Bool) : KeepsLaws s (s.clockInto f mosi) := by
  unfold State.clockInto
  dsimp only
  split
  · exact .same
  · split
    · exact .same
    · split
      · exact KeepsLaws.trans .same (keepsLaws_completeFrame _ _)
      · exact .same

theorem keepsLaws_linkEvent (s : State) (v : Word) (e : FrameEvent) : KeepsLaws s (s.linkEvent v e) := by
  unfold State.linkEvent
  split
  · exact keepsLaws_writeRegister s _ v
  · exact .same
  · cases s.mgmt.frame with
    | none => exact .refl s
    | some f => exact keepsLaws_clockInto s f _
  · exact .same

/-! ### The shells of the commands -/

theorem keepsLaws_happen {s t : State} {b : Bool} {f : State → State} (hf : ∀ u, KeepsLaws u (f u))
    (ht : happen s b f = .next t) : KeepsLaws s t := by
  have hclear : KeepsLaws s s.clearOut := .same
  rcases happen_cases s b f with ⟨-, -, h⟩ | h <;> rw [h] at ht <;> obtain rfl := Host.Outcome.next.inj ht
  · exact (hclear.trans (hf _)).trans .same
  · exact hclear

theorem keepsLaws_acknowledge {s t : State} {serves : Purpose → Bool} {b : Bool} {f : State → State}
    (hf : ∀ u, KeepsLaws u (f u)) (ht : acknowledge s serves b f = .next t) : KeepsLaws s t := by
  refine keepsLaws_happen (fun u => ?_) ht
  split
  · exact .same
  · exact KeepsLaws.trans .same (hf _)

theorem keepsLaws_complete {s t : State} {serves : Purpose → Bool} {c : Completion} {f : Purpose → State → State}
    (hf : ∀ p u, KeepsLaws u (f p u)) (ht : complete s serves c f = .next t) : KeepsLaws s t := by
  unfold complete at ht
  split at ht
  · obtain rfl := Host.Outcome.next.inj ht
    exact .same
  · split at ht
    · cases ht
    · refine keepsLaws_happen (fun u => ?_) ht
      split
      · exact KeepsLaws.trans .same (hf _ _)
      · exact .same

/-- A reset empties the index and the fault record. -/
theorem keepsLaws_coldReset (s : State) {t : State} (hi : t.index = []) (he : t.engine.NoFault) : KeepsLaws s t :=
  ⟨fun _ => indexLaw_empty hi, fun _ _ => he⟩

/-- Every command keeps the two laws. -/
theorem keepsLaws_exec {c : Instr} {s t : State} (ht : exec c s = .next t) : KeepsLaws s t := by
  cases c with
  | resetAssert => obtain rfl := Host.Outcome.next.inj ht; exact .same
  | resetRelease abase => obtain rfl := Host.Outcome.next.inj ht; exact keepsLaws_coldReset s rfl ⟨rfl, rfl, rfl, rfl⟩
  | powerLoss => obtain rfl := Host.Outcome.next.inj ht; exact keepsLaws_coldReset s rfl ⟨rfl, rfl, rfl, rfl⟩
  | requestTake r =>
    simp only [exec, execRequestTake] at ht
    split at ht
    · exact keepsLaws_happen (fun _ => .same) ht
    · cases ht
  | admission st => exact keepsLaws_happen (keepsLaws_admitNext · st) ht
  | reExamination st => exact keepsLaws_happen (keepsLaws_reExamine · st) ht
  | holdExpiry st => exact keepsLaws_happen (f := (State.declineHeld · .holdExpired st)) (fun _ => .same) ht
  | memoryGrant => exact keepsLaws_happen keepsLaws_grant ht
  | recordIssue => exact keepsLaws_happen keepsLaws_grant ht
  | capture => exact keepsLaws_happen keepsLaws_grant ht
  | passThroughGrant => exact keepsLaws_happen keepsLaws_grant ht
  | homeWriteIssue => exact keepsLaws_happen keepsLaws_grant ht
  | checkpointIssue => exact keepsLaws_happen keepsLaws_grant ht
  | serviceRequestGrant => exact keepsLaws_happen keepsLaws_grant ht
  | rewriteIssue => exact keepsLaws_happen keepsLaws_grant ht
  | recordAcknowledgement => exact keepsLaws_acknowledge keepsLaws_recordOk ht
  | recordFailure => exact keepsLaws_acknowledge keepsLaws_recordFailed ht
  | rewriteAcknowledgement st => exact keepsLaws_acknowledge (keepsLaws_rewriteDone · st) ht
  | startOfApply => exact keepsLaws_happen (f := State.startApply) (fun _ => .same) ht
  | homeWriteAcknowledgement => exact keepsLaws_acknowledge keepsLaws_homeWriteOk ht
  | applyFailure => exact keepsLaws_acknowledge keepsLaws_homeWriteFailed ht
  | checkpointAcknowledgement =>
    change execCheckpointAcknowledgement s = _ at ht
    unfold execCheckpointAcknowledgement at ht
    refine keepsLaws_acknowledge (fun u => ?_) ht
    split
    · exact keepsLaws_rewriteOk u
    · exact keepsLaws_checkpointOk u
  | checkpointFailure second =>
    change execCheckpointFailure second s = _ at ht
    unfold execCheckpointFailure at ht
    refine keepsLaws_acknowledge (fun u => ?_) ht
    split
    · exact keepsLaws_rewriteFailed u
    · exact keepsLaws_checkpointFailed u
  | anchorFirstHalfCompletion st => exact keepsLaws_acknowledge (keepsLaws_firstHalfDone · _ st) ht
  | passThroughCompletion x => exact keepsLaws_complete (f := fun p u => u.passDone x p) (fun _ _ => .same) ht
  | homeReadDataReturn x => exact keepsLaws_complete (f := fun p u => u.homeReadDone x p) (fun _ _ => .same) ht
  | drainCompletion => exact keepsLaws_happen (fun _ => KeepsLaws.trans .same (keepsLaws_drainCheck _)) ht
  | anchorReadCompletion x => exact keepsLaws_complete (fun _ u => keepsLaws_anchorReadDone u x) ht
  | scanReadCompletion x =>
    change execScanReadCompletion x s = _ at ht
    unfold execScanReadCompletion at ht
    refine keepsLaws_complete (fun p u => ?_) ht
    split
    · exact keepsLaws_scanDone u _ x
    · exact .refl u
  | walkReadCompletion x =>
    change execWalkReadCompletion x s = _ at ht
    unfold execWalkReadCompletion at ht
    refine keepsLaws_complete (fun p u => ?_) ht
    split
    · exact keepsLaws_walkDone u _ x
    · exact keepsLaws_collectDone u _ x
    · exact .refl u
  | replayWriteCompletion st =>
    change execReplayWriteCompletion st s = _ at ht
    unfold execReplayWriteCompletion at ht
    refine keepsLaws_acknowledge (fun u => ?_) ht
    split
    · exact .same
    · exact keepsLaws_recoveryFault u _
  | formatAnchorWriteCompletion st => exact keepsLaws_acknowledge (keepsLaws_formatWriteDone · st) ht
  | digestReadCompletion x => exact keepsLaws_complete (f := fun _ u => u.digestReadDone x) (fun _ _ => .same) ht
  | quiesce => exact keepsLaws_happen (keepsLaws_offer keepsLaws_quiesce) ht
  | resume => exact keepsLaws_happen (keepsLaws_offer keepsLaws_resume) ht
  | discardOpen => exact keepsLaws_happen (keepsLaws_offer keepsLaws_discardOpen) ht
  | clearFault => exact keepsLaws_happen (keepsLaws_offer keepsLaws_clearFault) ht
  | restart => exact keepsLaws_happen keepsLaws_restart ht
  | format => exact keepsLaws_happen (keepsLaws_offer keepsLaws_format) ht
  | digest => exact keepsLaws_happen (keepsLaws_offer (f := State.digest) fun _ => .same) ht
  | abortDigest => exact keepsLaws_happen (f := State.abortDigest) (fun _ => .same) ht
  | stageFromActive => exact keepsLaws_happen (keepsLaws_offer keepsLaws_stageFromActive) ht
  | unknownCommand code => exact keepsLaws_happen (keepsLaws_offerCode · code) ht
  | eventPop => exact keepsLaws_happen (f := State.popEvent) (fun _ => .same) ht
  | intEnableWrite value => exact keepsLaws_happen (f := (State.writeIntEnable · value)) (fun _ => .same) ht
  | lostClear => exact keepsLaws_happen (f := State.clearLost) (fun _ => .same) ht
  | profileDataWrite w value => exact keepsLaws_happen (keepsLaws_writeProfileData · w value) ht
  | registerWrite n value => exact keepsLaws_happen (keepsLaws_linkEvent · value n) ht

/-- Settles O57: every step keeps the law of the Line Index and the law of the fault record, each without the other. -/
theorem stepKeepsIndexAndFaultRecordLaws : Obligations.StepKeepsIndexAndFaultRecordLaws := by
  unfold Obligations.StepKeepsIndexAndFaultRecordLaws
  have hstep {s t : State} (ht : step s = .next t) : KeepsLaws s t := by
    unfold step at ht
    split at ht
    · obtain rfl := Host.Outcome.next.inj ht
      exact .same
    · rename_i c rest _
      have hqueue : KeepsLaws s { s with pending := rest } := .same
      exact hqueue.trans (keepsLaws_exec ht)
  exact ⟨fun s t hs ht => (hstep ht).index hs, fun s t hs ht => (hstep ht).record hs⟩

end Sys2Proof.Machine
end

section
/-! Merged reads and writes without an enabled byte (O9). -/

namespace Sys2Proof.Machine

set_option Elab.async false

/-! ### Requests that an examination sends on or answers at once -/

/-- A merged read makes no response ready: its place is now reading (R36). -/
theorem noReadyFront_mergedRead {s : State} (h : NoReadyFront s) (st : Stream) (p : Place) :
    NoReadyFront (s.mergedRead st p) :=
  noReadyFront_updatePlace (s := s.handOver st p true) h st p.index _ fun q x => by simp

/-- The admission of a merged read (R36, R54). -/
theorem mergedRead_leads {s : State} {st : Stream} {p : Place} (hlive : Live s) (hadmissible : Admissible s st p)
    (hmerged : MergedAt s p.request) : Leads (.admission st) s fun t =>
      t.out = Outputs.none ∧ Becomes t (s.mergedRead st p) := by
  have hquiet : NoReadyFront (s.clearOut.mergedRead st p) := noReadyFront_mergedRead hlive.2 st p
  refine ⟨(s.clearOut.mergedRead st p).finish, ?_, out_finish_quiet hquiet, becomes_finish_quiet hquiet⟩
  rw [exec_admission hlive.1 hadmissible, classify_of_mergedAt hmerged, State.act]

/-- The examination of a write without an enabled byte (R55). -/
theorem exec_zeroEnable {s : State} {c : Instr} {st : Stream} {p : Place} (hlive : Live s) (hex : Examines s c st p)
    (hzero : ZeroEnableAt s p.request) : exec c s = .next ((s.clearOut.endHold st).makeReady st p.index (.ok [])).finish := by
  rw [exec_of_examines hlive.1 hex, classify_of_zeroEnableAt hzero]
  simp only [State.act, endHold_paid]

/-- Settles O9: the admission of a merged read, and the examination of a write without an enabled byte. -/
theorem mergedReadsAndZeroEnableWrites : Obligations.MergedReadsAndZeroEnableWrites := by
  unfold Obligations.MergedReadsAndZeroEnableWrites
  refine ⟨fun s st p => mergedRead_leads, fun s c st p hlive hex hzero => ?_⟩
  obtain ⟨hanswered, hsettles, hissued⟩ :=
    makeReady_finish (u := s.clearOut.endHold st) (.ok []) hlive (examines_mem hex) rfl rfl
  exact ⟨_, exec_zeroEnable hlive hex hzero, hanswered, hsettles, hissued, becomes_finish _⟩

end Sys2Proof.Machine
end

section
/-! The completions of the request path (O30). -/

namespace Sys2Proof.Machine

set_option Elab.async false

/-! ### The result of a merged read (R38) -/

/-- Byte for byte, the overlay byte where the overlay holds one and the home byte elsewhere. -/
theorem mergedBytes_getElem? {r : Request} {b : Overlay} {home : List Byte} {k : Nat}
    (hk : k < (mergedBytes r b home).length) : (mergedBytes r b home)[k]? = (home[k]?).map fun h =>
      ((b.cells[r.addr.toNat % 128 + k]?).join).getD h := by
  simp only [mergedBytes, List.length_zipWith, List.length_drop, lt_inf_iff] at hk
  obtain ⟨hcell, hhome⟩ := hk
  have hindex : r.addr.toNat % 128 + k < b.cells.length := by omega
  simp [mergedBytes, List.getElem?_zipWith, List.getElem?_drop, hhome, hindex]

/-- A read within one block gets a result of its own length. -/
theorem mergedBytes_length {r : Request} {b : Overlay} {home : List Byte} (hcells : b.cells.length = 128)
    (hhome : home.length = r.op.length) (hblock : r.crossesBlock = false) : (mergedBytes r b home).length = r.op.length := by
  have hfits : r.addr.toNat % 128 + r.op.length ≤ 128 := by simpa [Request.crossesBlock] using hblock
  simp only [mergedBytes, List.length_zipWith, List.length_drop]
  omega

/-! ### The end of an event that changes one place -/

/-- The front entry has left the outstanding list. -/
theorem dropFront_awaits {s : State} {e : MemEntry} {rest : List MemEntry} (h : Awaits s e rest) :
    s.clearOut.dropFront = { s.clearOut with mem := { s.mem with outstanding := rest } } := by
  simp [State.dropFront, State.clearOut, h.1]

/-- The place `p` changed by `f` to a ready response, in an event whose outputs and ports were untouched so far. -/
theorem updatePlace_finish {s u : State} {st : Stream} {p : Place} {f : Place → Place} {x : Status} (hlive : Live s)
    (hmem : p ∈ (getV s.ports st).places) (hports : u.ports = s.ports) (hout : u.out = Outputs.none)
    (hphase : (f p).phase = .ready x) (hindex : (f p).index = p.index) (hrequest : (f p).request = p.request) :
    Answered (u.updatePlace st p.index f).finish st p x
      ∧ Settles s (u.updatePlace st p.index f).finish st (fun q => if q.index = p.index then f q else q)
      ∧ (u.updatePlace st p.index f).finish.out.issued = none := by
  refine ⟨answered_finish (q := f p) ?_ hphase hindex hrequest, settles_finish hlive.2 ?_ ?_, ?_⟩
  · rw [updatePlace_places, hports]
    exact List.mem_map.2 ⟨p, hmem, if_pos rfl⟩
  · rw [State.updatePlace, hports]
    rfl
  · show u.out.responses = []
    rw [hout]; rfl
  · rw [finish_issued]
    show u.out.issued = none
    rw [hout]; rfl

/-- A place that is found is declined MEMORY_ERROR (R143). -/
theorem memoryError_eq {s : State} {st : Stream} {i : Fin 4} {p : Place} (h : s.place? st i = some p) :
    s.memoryError st i = s.decline st p .memoryError := by
  simp only [State.memoryError, h]

/-- A completion with an error declines the request it serves, whatever kind of request it is (R41, R143). -/
theorem memoryError_leads {c : Instr} {s : State} {e : MemEntry} {rest : List MemEntry} {st : Stream} {i : Fin 4} {p : Place}
    (hlive : Live s) (haw : Awaits s e rest) (hp : s.place? st i = some p)
    (hexec : exec c s = .next (s.clearOut.dropFront.memoryError st i).finish) :
    Leads c s fun t => Declined s t st p .memoryError ∧ Settles s t st (Place.refuse i .memoryError) ∧ t.out.issued = none
      ∧ Becomes t { s with ports := t.ports, mgmt := t.mgmt, mem := { s.mem with outstanding := rest } } := by
  obtain ⟨hmem, rfl⟩ := place?_mem hp
  rw [memoryError_eq (s := s.clearOut.dropFront) hp, dropFront_awaits haw] at hexec
  obtain ⟨hanswered, hsettles, hissued⟩ := decline_finish
    (v := { s.clearOut with mem := { s.mem with outstanding := rest } }) .memoryError hlive hmem rfl rfl
  refine ⟨_, hexec, ⟨hanswered, ?_⟩, hsettles, hissued, ?_⟩
  · rw [finish_mgmt, decline_mgmt]
    rfl
  · rw [finish_mgmt]
    exact becomes_finish _

/-- A pass-through request completes OK (R63, R142). -/
theorem passThroughOk_leads {s : State} {e : MemEntry} {rest : List MemEntry} {st : Stream} {i : Fin 4} {p : Place}
    {data : List Byte} (hlive : Live s) (haw : Awaits s e rest) (hpurpose : e.purpose = .passThrough st i)
    (hp : s.place? st i = some p) (hfits : e.request.fits (.ok data) = true) :
    Leads (.passThroughCompletion (.ok data)) s fun t =>
      Answered t st p (.ok data) ∧ Settles s t st (Place.answer i (.ok data)) ∧ t.out.issued = none
        ∧ Becomes t { s with ports := t.ports, mem := { s.mem with outstanding := rest } } := by
  obtain ⟨hmem, rfl⟩ := place?_mem hp
  have hexec : exec (.passThroughCompletion (.ok data)) s = _ :=
    complete_next (f := fun p t => t.passDone (.ok data) p) hlive.1 haw (by rw [hpurpose]; rfl) hfits
  rw [hpurpose, dropFront_awaits haw] at hexec
  obtain ⟨hanswered, hsettles, hissued⟩ := makeReady_finish
    (u := { s.clearOut with mem := { s.mem with outstanding := rest } }) (.ok data) hlive hmem rfl rfl
  exact ⟨_, hexec, hanswered, hsettles, hissued, becomes_finish _⟩

/-- A home read completes OK: its data is merged with the overlay (R38). -/
theorem homeReadOk_leads {s : State} {e : MemEntry} {rest : List MemEntry} {st : Stream} {i : Fin 4} {p : Place} {b : Overlay}
    {data : List Byte} (hlive : Live s) (haw : Awaits s e rest) (hpurpose : e.purpose = .homeRead st i)
    (hp : s.place? st i = some p) (hbuffer : p.buffer = some b) (hfits : e.request.fits (.ok data) = true) :
    Leads (.homeReadDataReturn (.ok data)) s fun t => Answered t st p (.ok (mergedBytes p.request b data))
      ∧ Settles s t st (fun q => if q.index = i then Place.merge data q else q) ∧ t.out.issued = none
      ∧ Becomes t { s with ports := t.ports, mem := { s.mem with outstanding := rest } } := by
  obtain ⟨hmem, rfl⟩ := place?_mem hp
  have hexec : exec (.homeReadDataReturn (.ok data)) s = _ :=
    complete_next (f := fun p t => t.homeReadDone (.ok data) p) hlive.1 haw (by rw [hpurpose]; rfl) hfits
  rw [hpurpose, dropFront_awaits haw] at hexec
  have hmerge : p.merge data = { p with
      phase := .ready (.ok (mergedBytes p.request b data))
      buffer := some { b with state := .merged, result := some (mergedBytes p.request b data) } } := by
    simp only [Place.merge, hbuffer]
  obtain ⟨hanswered, hsettles, hissued⟩ := updatePlace_finish (f := Place.merge data)
    (u := { s.clearOut with mem := { s.mem with outstanding := rest } }) hlive hmem rfl rfl
    (by rw [hmerge]) (by rw [hmerge]) (by rw [hmerge])
  exact ⟨_, hexec, hanswered, hsettles, hissued, becomes_finish _⟩

/-- Settles O30: the completions of a pass-through request and of a merged read's home read, OK and with an error. -/
theorem requestPathCompletions : Obligations.RequestPathCompletions := by
  unfold Obligations.RequestPathCompletions
  refine ⟨fun s e rest st i p hlive haw hpurpose hp => ⟨fun data => passThroughOk_leads hlive haw hpurpose hp, ?_⟩,
    fun s e rest st i p b hlive haw hpurpose hp hbuffer hcells => ⟨fun data hfits hlength hblock => ?_, ?_⟩⟩
  · refine memoryError_leads hlive haw hp ?_
    refine (complete_next (f := fun p t => t.passDone .error p) hlive.1 haw (by rw [hpurpose]; rfl) rfl).trans ?_
    rw [hpurpose]
    rfl
  · obtain ⟨t, hexec, hanswered, hrest⟩ := homeReadOk_leads hlive haw hpurpose hp hbuffer hfits
    exact ⟨t, hexec, _, hanswered, mergedBytes_length hcells hlength hblock, fun k => mergedBytes_getElem?, hrest⟩
  · refine memoryError_leads hlive haw hp ?_
    refine (complete_next (f := fun p t => t.homeReadDone .error p) hlive.1 haw (by rw [hpurpose]; rfl) rfl).trans ?_
    rw [hpurpose]
    rfl

end Sys2Proof.Machine
end

section
/-! Home writes and the grants of the request path (O19). -/

namespace Sys2Proof.Machine

set_option Elab.async false

/-! ### The grant of a requester that the arbiter has chosen (R139, R140) -/

/-- The state in which the grant of requester `r` acts: the pointer has moved, if by rotation. -/
def State.pointed (s : State) (r : Requester) (byRotation : Bool) : State :=
  { s.clearOut with mem := { s.mem with pointer := s.pointerAfter r byRotation } }

theorem chosen_of_granted {s : State} {r : Requester} {byRotation : Bool} (h : Granted s r byRotation) :
    s.chosen = some r := by
  unfold Granted at h
  rw [State.chosen, h]
  rfl

/-- The arbiter's choice acts on the state with the pointer moved. -/
theorem grant_of_granted {s : State} {r : Requester} {byRotation : Bool} (h : Granted s r byRotation) :
    s.clearOut.grant = (s.pointed r byRotation).grantTo r := by
  have hchoice : s.clearOut.arbiterChoice = some (r, byRotation) := h
  have hmove : s.clearOut.movePointer r byRotation = s.pointed r byRotation := by
    unfold State.movePointer State.pointed State.pointerAfter
    split <;> rfl
  simp only [State.grant, hchoice, hmove]

/-- The issue of a home write: the slot at the next position goes out with its mask and data (R123). -/
theorem homeWriteIssue_leads {s : State} {a : ApplyRecord} {g : Group} {id : SlotId} {x : Slot} {byRotation : Bool}
    (hlive : Live s) (hgrant : Granted s .applyEngine byRotation) (ha : s.apply = some a) (hg : s.findGroup a.group = some g)
    (hid : g.entries[a.nextPos]? = some id) (hx : s.slot id = some x) : Leads .homeWriteIssue s fun t =>
      t.out = onlyIssue (homeWrite x) ∧ Becomes t { s with
        apply := some { a with nextPos := a.nextPos + 1, outstanding := a.outstanding + 1 }
        mem := { s.mem with
          outstanding := s.mem.outstanding ++ [{ purpose := .homeWrite, request := homeWrite x, live := true }]
          pointer := s.pointerAfter .applyEngine byRotation } } := by
  have hgroup : (s.pointed .applyEngine byRotation).groupOf a.group = g := by
    have hfind : (s.pointed .applyEngine byRotation).findGroup a.group = some g := hg
    rw [State.groupOf, hfind, Option.getD_some]
  have hwrite : (s.pointed .applyEngine byRotation).homeWriteOf id = homeWrite x := by
    have hslot : (s.pointed .applyEngine byRotation).slot id = some x := hx
    rw [State.homeWriteOf, hslot, Option.getD_some]
  have hissued := grant_of_granted hgrant
  have happly : (s.pointed .applyEngine byRotation).apply = some a := ha
  simp only [State.grantTo, State.issueHomeWrite, happly, hgroup, hid, hwrite] at hissued
  exact leads_quiet (f := State.grant) rfl hlive.1 (by simp [chosen_of_granted hgrant]) hissued
    (noReadyFront_of_ports hlive.2 rfl) fun t ht htout => ⟨htout, ht⟩

/-- The grant of a pass-through request: it goes out as it is (R142). -/
theorem passThroughGrant_leads {s : State} {p : PathRequest} {rest : List PathRequest} {byRotation : Bool} (hlive : Live s)
    (hgrant : Granted s .requestPath byRotation) (hpath : s.mem.path = p :: rest) (hmerged : p.merged = false) :
    Leads .passThroughGrant s fun t => t.out = onlyIssue p.request ∧ Becomes t { s with
      mem := { s.mem with
        path := rest
        outstanding := s.mem.outstanding ++ [{ purpose := .passThrough p.stream p.place, request := p.request, live := true }]
        pointer := s.pointerAfter .requestPath byRotation } } := by
  have hissued := grant_of_granted hgrant
  have hpath' : (s.pointed .requestPath byRotation).mem.path = p :: rest := hpath
  simp only [State.grantTo, State.issuePath, hpath', hmerged, Bool.false_eq_true, if_false] at hissued
  exact leads_quiet (f := State.grant) rfl hlive.1 (by simp [chosen_of_granted hgrant, State.pathMerged, hpath, hmerged]) hissued
    (noReadyFront_of_ports hlive.2 rfl) fun t ht htout => ⟨htout, ht⟩

/-- A change of a place that keeps its phase leaves no ready response at a front. -/
theorem noReadyFront_updatePlace_phase {s : State} (h : NoReadyFront s) (st : Stream) (i : Fin 4) {f : Place → Place}
    (hf : ∀ q, (f q).phase = q.phase) : NoReadyFront (s.updatePlace st i f) := by
  intro o p hp x
  by_cases ho : o = st
  · subst ho
    rw [updatePlace_places, List.head?_map, Option.map_eq_some_iff] at hp
    obtain ⟨q, hq, rfl⟩ := hp
    have hphase : (if q.index = i then f q else q).phase = q.phase := by
      split
      · exact hf q
      · rfl
    rw [hphase]
    exact h o q hq x
  · rw [updatePlace_other _ _ _ _ _ ho] at hp
    exact h o p hp x

/-- The grant of a merged home read captures the overlay in the same event (R37). -/
theorem capture_leads {s : State} {p : PathRequest} {rest : List PathRequest} {byRotation : Bool} (hlive : Live s)
    (hgrant : Granted s .requestPath byRotation) (hpath : s.mem.path = p :: rest) (hmerged : p.merged = true) :
    Leads .capture s fun t => t.out = onlyIssue p.request ∧ Becomes t { s with
      ports := (s.capture p.stream p.place).ports
      mem := { s.mem with
        path := rest
        outstanding := s.mem.outstanding ++ [{ purpose := .homeRead p.stream p.place, request := p.request, live := true }]
        pointer := s.pointerAfter .requestPath byRotation } } := by
  have hissued := grant_of_granted hgrant
  have hpath' : (s.pointed .requestPath byRotation).mem.path = p :: rest := hpath
  simp only [State.grantTo, State.issuePath, hpath', hmerged, if_true] at hissued
  exact leads_quiet (f := State.grant) rfl hlive.1 (by simp [chosen_of_granted hgrant, State.pathMerged, hpath, hmerged]) hissued
    (noReadyFront_updatePlace_phase (noReadyFront_of_ports hlive.2 rfl) p.stream p.place fun _ => rfl)
    fun t ht htout => ⟨htout, ht⟩

/-- Settles O19: the issue of a home write and the two grants of the request path. -/
theorem homeWriteAndRequestPathGrants : Obligations.HomeWriteAndRequestPathGrants := by
  unfold Obligations.HomeWriteAndRequestPathGrants
  exact ⟨fun s a g id x byRotation => homeWriteIssue_leads, fun s p rest byRotation hlive hgrant hpath =>
    ⟨passThroughGrant_leads hlive hgrant hpath, capture_leads hlive hgrant hpath⟩⟩

end Sys2Proof.Machine
end

section
/-! What a capture holds (O20). -/

namespace Sys2Proof.Machine

set_option Elab.async false

/-! ### Lists of equal length one after another -/

theorem length_flatMap_range {α : Type} {f : Nat → List α} {n : Nat} (hf : ∀ k, (f k).length = n) (m : Nat) :
    ((List.range m).flatMap f).length = m * n := by
  simp [List.length_flatMap, hf]

/-- Entry `j` of part `k`, where every part has length `n`. -/
theorem getElem?_flatMap_range {α : Type} {f : Nat → List α} {n : Nat} (hf : ∀ k, (f k).length = n) {m k j : Nat}
    (hk : k < m) (hj : j < n) : ((List.range m).flatMap f)[n * k + j]? = (f k)[j]? := by
  induction m with
  | zero => omega
  | succ m ih =>
    rw [List.range_succ, List.flatMap_append, List.flatMap_singleton]
    have hlength := length_flatMap_range hf m
    by_cases hlast : k = m
    · subst hlast
      rw [List.getElem?_append_right (by rw [hlength, Nat.mul_comm]; omega), hlength, Nat.mul_comm, Nat.add_sub_cancel_left]
    · have hpart : n * (k + 1) ≤ n * m := Nat.mul_le_mul_left n (by omega)
      rw [Nat.mul_succ] at hpart
      rw [List.getElem?_append_left (by rw [hlength, Nat.mul_comm m n]; omega)]
      exact ih (by omega)

/-! ### Versions laid over one another (R14, R35) -/

theorem length_overlay {older newer : List (Option Byte)} {n : Nat} (ho : older.length = n) (hn : newer.length = n) :
    (overlay older newer).length = n := by
  simp [overlay, ho, hn]

/-- The newer byte replaces the older one. -/
theorem getElem?_overlay {older newer : List (Option Byte)} {n j : Nat} (ho : older.length = n) (hn : newer.length = n)
    (hj : j < n) : (overlay older newer)[j]?.join = (newer[j]?.join).or older[j]?.join := by
  have hjo : j < older.length := by omega
  have hjn : j < newer.length := by omega
  simp [overlay, hjo, hjn]

/-- Where no byte is held there is none to take. -/
theorem getElem?_noCells (n j : Nat) : (List.replicate n (none : Option Byte))[j]?.join = none := by
  rw [List.getElem?_replicate]
  split <;> rfl

theorem length_overlays {α : Type} {cells : α → List (Option Byte)} {n : Nat} (hcells : ∀ id, (cells id).length = n)
    (ids : List α) {base : List (Option Byte)} (hbase : base.length = n) :
    (ids.foldl (fun acc id => overlay acc (cells id)) base).length = n := by
  induction ids generalizing base with
  | nil => exact hbase
  | cons id ids ih => exact ih (length_overlay hbase (hcells id))

/-- Of several versions, oldest first, the newest that holds a byte gives it. -/
theorem getElem?_overlays {α : Type} {cells : α → List (Option Byte)} {n : Nat} (hcells : ∀ id, (cells id).length = n)
    (ids : List α) {base : List (Option Byte)} (hbase : base.length = n) {j : Nat} (hj : j < n) :
    (ids.foldl (fun acc id => overlay acc (cells id)) base)[j]?.join
      = (ids.reverse.findSome? fun id => (cells id)[j]?.join).or base[j]?.join := by
  induction ids generalizing base with
  | nil => rfl
  | cons id ids ih =>
    rw [List.foldl_cons, ih (length_overlay hbase (hcells id)), getElem?_overlay hbase (hcells id) hj, List.reverse_cons,
      List.findSome?_append, Option.or_assoc]
    congr 2
    simp

/-! ### The overlay of a line and of a block (R35, R37) -/

/-- The versions of line `l` that stream `st` may see, oldest first. -/
def State.visibleTo (s : State) (st : Stream) (l : Line) : List SlotId := (s.entry l).elim [] (·.visible st)

/-- The cells of a version; a version with no slot holds no byte. -/
def State.cellsOfSlot (s : State) (id : SlotId) : List (Option Byte) := ((s.slot id).getD Slot.blank).cells

theorem lineOverlay_eq (s : State) (st : Stream) (l : Line) : s.lineOverlay st l
    = (s.visibleTo st l).foldl (fun acc id => overlay acc (s.cellsOfSlot id)) (List.replicate 32 none) := by
  unfold State.lineOverlay State.visibleTo
  cases s.entry l <;> rfl

theorem length_cellsOfSlot {s : State} (h : ∀ id x, s.slot id = some x → x.cells.length = 32) (id : SlotId) :
    (s.cellsOfSlot id).length = 32 := by
  unfold State.cellsOfSlot
  cases hx : s.slot id with
  | none => rfl
  | some x => exact h id x hx

theorem getElem?_cellsOfSlot (s : State) (id : SlotId) (j : Nat) :
    (s.cellsOfSlot id)[j]?.join = (s.slot id).bind fun x => x.cells[j]?.join := by
  unfold State.cellsOfSlot
  cases s.slot id with
  | none => exact getElem?_noCells 32 j
  | some x => rfl

theorem length_lineOverlay {s : State} (h : ∀ id x, s.slot id = some x → x.cells.length = 32) (st : Stream) (l : Line) :
    (s.lineOverlay st l).length = 32 := by
  rw [lineOverlay_eq]
  exact length_overlays (length_cellsOfSlot h) _ (List.length_replicate ..)

/-- A byte of a line's overlay is that of the newest visible version that holds it. -/
theorem getElem?_lineOverlay {s : State} (h : ∀ id x, s.slot id = some x → x.cells.length = 32) (st : Stream) (l : Line) {j : Nat}
    (hj : j < 32) : (s.lineOverlay st l)[j]? = some ((s.visibleTo st l).reverse.findSome? fun id =>
      (s.slot id).bind fun x => x.cells[j]?.join) := by
  have hlength : j < (s.lineOverlay st l).length := by rw [length_lineOverlay h]; exact hj
  have hbyte := getElem?_overlays (length_cellsOfSlot h) (s.visibleTo st l) (base := List.replicate 32 none)
    (List.length_replicate ..) hj
  rw [← lineOverlay_eq] at hbyte
  simp only [getElem?_cellsOfSlot, getElem?_noCells, Option.or_none] at hbyte
  rw [List.getElem?_eq_getElem hlength] at hbyte ⊢
  exact congrArg some hbyte

/-- The visible bytes of line `l` that lie in the request's range. -/
def State.lineCapture (s : State) (st : Stream) (r : Request) (line : Nat) : List (Option Byte) :=
  List.zipWith (fun o c => if r.first ≤ 32 * line + o && 32 * line + o < r.stop then c else none)
    (List.range 32) (s.lineOverlay st (BitVec.ofNat 31 line))

theorem captureCells_eq (s : State) (st : Stream) (r : Request) : s.captureCells st r
    = (List.range 4).flatMap fun k => s.lineCapture st r (r.addr.toNat / 128 * 4 + k) := rfl

theorem length_lineCapture {s : State} (h : ∀ id x, s.slot id = some x → x.cells.length = 32) (st : Stream) (r : Request)
    (line : Nat) : (s.lineCapture st r line).length = 32 := by
  simp [State.lineCapture, length_lineOverlay h]

theorem getElem?_lineCapture {s : State} (h : ∀ id x, s.slot id = some x → x.cells.length = 32) (st : Stream) (r : Request)
    (line : Nat) {j : Nat} (hj : j < 32) : (s.lineCapture st r line)[j]?
      = some (if r.first ≤ 32 * line + j ∧ 32 * line + j < r.stop then
          (s.visibleTo st (BitVec.ofNat 31 line)).reverse.findSome? fun id => (s.slot id).bind fun x => x.cells[j]?.join
        else none) := by
  simp only [State.lineCapture, List.getElem?_zipWith, getElem?_lineOverlay h st _ hj, List.getElem?_range hj]
  simp

/-- The versions that the reader may see, as the statement lists them. -/
theorem visibleTo_eq (s : State) (st : Stream) (l : Line) : s.visibleTo st l = match s.entry l with
    | none => []
    | some e => if e.owner = some st then e.sealedPart ++ e.unsealedPart ++ e.openPart.toList else e.sealedPart := by
  unfold State.visibleTo IndexEntry.visible
  cases s.entry l with
  | none => rfl
  | some e =>
    dsimp only [Option.elim]
    split <;> simp

/-- Settles O20: the newest visible byte at each offset of the block. -/
theorem captureTakesTheNewestVisibleByte : Obligations.CaptureTakesTheNewestVisibleByte := by
  unfold Obligations.CaptureTakesTheNewestVisibleByte
  intro s st r o ho a line visible hcells
  have hlength := length_lineCapture hcells st r
  refine ⟨length_flatMap_range (fun k => hlength _) 4, ?_⟩
  have hvisible : visible = s.visibleTo st line := (visibleTo_eq s st line).symm
  have hline : r.addr.toNat / 128 * 4 + o / 32 = a / 32 := by omega
  have hbyte : 32 * (a / 32) + o % 32 = a := by omega
  have hoffset : a % 32 = o % 32 := by omega
  have hpart := getElem?_flatMap_range (f := fun k => s.lineCapture st r (r.addr.toNat / 128 * 4 + k)) (fun k => hlength _)
    (show o / 32 < 4 by omega) (Nat.mod_lt o (show 0 < 32 by omega))
  rw [Nat.div_add_mod, hline, getElem?_lineCapture hcells st r _ (Nat.mod_lt o (by omega)), hbyte] at hpart
  rw [captureCells_eq, hpart, hvisible, hoffset]

end Sys2Proof.Machine
end

section
/-! A record acknowledged OK (O23). -/

namespace Sys2Proof.Machine

set_option Elab.async false

/-! ### CLEAR_FAULT and the quiesce-completion test after an acknowledgement (R165, R167) -/

/-- A CLEAR_FAULT whose step neither completes nor begins an attempt stays where it is. -/
theorem continueClear_of_waits {s : State} (h : ClearWaits s 0) : s.continueClear = s := by
  unfold ClearWaits at h
  unfold State.continueClear
  cases hclear : s.engine.clear with
  | none => rfl
  | some step =>
    simp only [hclear] at h
    cases step with
    | journal own => simp [State.journalClean, h]
    | apply started =>
      obtain ⟨a, ha, hwaits⟩ := h
      simp only [ha]
      refine if_neg fun hbegins => ?_
      simp only [Bool.and_eq_true, Bool.not_eq_true', decide_eq_true_eq] at hbegins
      obtain ⟨hstarted, hzero⟩ := hbegins
      rcases hwaits with hwaits | hwaits
      · rw [hstarted] at hwaits; cases hwaits
      · omega
    | anchor => rfl

/-- Whether CLEAR_FAULT waits depends on its step, the failed list and the apply record. -/
theorem ClearWaits.congr {s t : State} {left : Nat} (h : ClearWaits s left) (he : t.engine = s.engine)
    (hf : t.journal.failed = s.journal.failed) (ha : t.apply = s.apply) : ClearWaits t left := by
  unfold ClearWaits at h ⊢
  rwa [he, hf, ha]

/-- What the quiesce-completion test makes of the Checkpoint Logic of `s` in an event that leads to `t`. -/
def quiesceTested (s t : State) : CheckpointLogic :=
  { s.ckpt with
    pending := s.ckpt.pending || quiesces s t
    request := if quiesces s t then some .quiesce else s.ckpt.request }

theorem quiesceTest_ckpt (s : State) : s.quiesceTest.ckpt = quiesceTested s s := by
  have htest : (s.engine.state = .quiescing && s.noGroup && s.journal.outstanding.isEmpty && !s.ckpt.holdsQuiesce)
      = quiesces s s := rfl
  unfold State.quiesceTest quiesceTested
  rw [htest]
  split
  · rename_i h
    simp [h, State.requestCheckpoint]
  · rename_i h
    simp [h]

/-- An event that ends with the quiesce-completion test and has left the Checkpoint Logic as it was before. -/
theorem quiesceTest_finish_ckpt {s u : State} (hc : u.ckpt = s.ckpt) :
    u.quiesceTest.finish.ckpt = quiesceTested s u.quiesceTest.finish := by
  have htest : quiesces s u.quiesceTest.finish = quiesces u u := by
    rw [quiesces_congr (t := u) (by simp) (by simp) (by simp)]
    unfold quiesces
    rw [hc]
  simp only [State.finish_keeps, quiesceTest_ckpt]
  unfold quiesceTested
  rw [htest, hc]

/-! ### A group found again after its descriptor has changed -/

/-- The descriptor with identity `ref` is changed by `f`, any other stays. -/
def Group.changeAt (ref : Nat) (f : Group → Group) (g : Group) : Group := if g.ref = ref then f g else g

theorem update_all (t : GroupTable) (ref : Nat) (f : Group → Group) : (t.update ref f).all = t.all.map (Group.changeAt ref f) := by
  have hopens : (mapV (Option.map (Group.changeAt ref f)) t.opens).toList = t.opens.toList.map (Option.map (Group.changeAt ref f)) := by
    simp [mapV]
  have hall : (t.update ref f).all = (mapV (Option.map (Group.changeAt ref f)) t.opens).toList.filterMap id
      ++ t.pipeline.map (Group.changeAt ref f) := rfl
  rw [hall, hopens, List.filterMap_map, GroupTable.all, List.map_append, List.map_filterMap]
  rfl

theorem findGroup_update {s t : State} {ref : Nat} {g : Group} {f : Group → Group} (hf : ∀ x, (f x).ref = x.ref)
    (hg : s.findGroup ref = some g) (ht : t.groups = s.groups.update ref f) : t.findGroup ref = some (f g) := by
  have hkeeps : (fun x : Group => decide (x.ref = ref)) ∘ Group.changeAt ref f = fun x => decide (x.ref = ref) := by
    funext x
    simp only [Function.comp_apply, Group.changeAt]
    split
    · rw [hf]
    · rfl
  rw [State.findGroup, ht, update_all, List.find?_map, hkeeps]
  rw [State.findGroup] at hg
  rw [hg, Option.map_some, Group.changeAt, if_pos (by simpa using List.find?_some hg)]

/-! ### The acknowledgement of a record (R109) -/

/-- A record has left the outstanding list and is counted, its request has left the Memory Port. -/
def State.recordCounted (s : State) (rest : List MemEntry) (more : List IssuedRecord) : State :=
  { s.clearOut with
    journal := { s.journal with outstanding := more }
    mem := { s.mem with outstanding := rest }
    mgmt := { s.mgmt with records := s.mgmt.records + 1 } }

/-- The acknowledgement while CLEAR_FAULT waits: the record is counted, a COMMIT seals its group, and the quiesce-completion
test follows. -/
theorem exec_recordAcknowledgement {s : State} {e : MemEntry} {rest : List MemEntry} {r : IssuedRecord}
    {more : List IssuedRecord} (hlive : Live s) (haw : Awaits s e rest) (hpurpose : e.purpose = .record)
    (hout : s.journal.outstanding = r :: more) (hwaits : ClearWaits s 0) : exec .recordAcknowledgement s
      = .next (if r.kind = .commit then (s.recordCounted rest more).sealedEvent r.group
          else s.recordCounted rest more).quiesceTest.finish := by
  have hout' : s.clearOut.journal.outstanding = r :: more := hout
  change acknowledge s Purpose.isRecord true State.recordOk = _
  rw [acknowledge_next hlive.1 haw (by rw [hpurpose]; rfl) rfl, dropFront_awaits haw]
  simp only [State.recordOk, hout', State.recordDurable]
  rw [continueClear_of_waits]
  · rfl
  · refine hwaits.congr ?_ ?_ ?_
    all_goals split <;> simp

/-- The acknowledgement of an ENTRY or a FILLER (R109). -/
theorem recordCounted_leads {s : State} {e : MemEntry} {rest : List MemEntry} {r : IssuedRecord} {more : List IssuedRecord}
    (hlive : Live s) (haw : Awaits s e rest) (hpurpose : e.purpose = .record) (hout : s.journal.outstanding = r :: more)
    (hkind : r.kind ≠ .commit) (hwaits : ClearWaits s 0) :
    Leads .recordAcknowledgement s fun t => t.out = Outputs.none ∧ Becomes t { s with
      journal := { s.journal with outstanding := more }
      mem := { s.mem with outstanding := rest }
      mgmt := { s.mgmt with records := s.mgmt.records + 1 }
      ckpt := quiesceTested s t } := by
  have hexec := exec_recordAcknowledgement hlive haw hpurpose hout hwaits
  rw [if_neg hkind] at hexec
  have hquiet : NoReadyFront (s.recordCounted rest more).quiesceTest := noReadyFront_of_ports hlive.2 (by simp; rfl)
  refine ⟨_, hexec, (out_finish_quiet hquiet).trans (by simp; rfl), ?_⟩
  rw [← quiesceTest_finish_ckpt (s := s) (u := s.recordCounted rest more) rfl]
  refine (becomes_finish_quiet hquiet).trans (becomes_of_fields ?_ ?_ ?_ ?_ ?_ ?_ ?_ ?_ ?_ ?_ ?_ ?_ ?_ ?_ ?_ ?_ ?_)
  all_goals simp [State.recordCounted]

/-- The acknowledgement of a COMMIT (R91, R109). -/
theorem commitSealed_leads {s : State} {e : MemEntry} {rest : List MemEntry} {r : IssuedRecord} {more : List IssuedRecord}
    {g : Group} (hlive : Live s) (haw : Awaits s e rest) (hpurpose : e.purpose = .record)
    (hout : s.journal.outstanding = r :: more) (hkind : r.kind = .commit) (hg : s.findGroup r.group = some g)
    (hwaits : ClearWaits s 0) : Leads .recordAcknowledgement s fun t => SealsGroup s t g
      ∧ (∀ st, ∀ p ∈ (getV s.ports st).places, p.phase = .withheld g.ref → Answered t st p (.ok []))
      ∧ t.mgmt = { s.mgmt with records := s.mgmt.records + 1, commits := s.mgmt.commits + 1 }
      ∧ Becomes t { s with
          groups := t.groups, ports := t.ports, index := t.index, holds := t.holds, mgmt := t.mgmt
          journal := { s.journal with outstanding := more }
          mem := { s.mem with outstanding := rest }
          ckpt := quiesceTested s t } := by
  have hexec := exec_recordAcknowledgement hlive haw hpurpose hout hwaits
  have href := findGroup_ref hg
  have hu : (s.recordCounted rest more).findGroup g.ref = some g := by rw [href]; exact hg
  rw [if_pos hkind, ← href] at hexec
  have hmgmt : ((s.recordCounted rest more).sealedEvent g.ref).mgmt
      = { s.mgmt with records := s.mgmt.records + 1, commits := s.mgmt.commits + 1 } := by
    rw [sealedEvent_eq _ hu]
    rfl
  refine ⟨_, hexec, ?_, fun st p hp hphase => ?_, ?_, ?_⟩
  · exact sealsGroup_finish hu rfl rfl rfl rfl (by simp) (by simp) (by simp) (by simp) (by simp; rfl)
  · exact sealed_answers hu (by simp) st p hp hphase
  · simpa using hmgmt
  · rw [← quiesceTest_finish_ckpt (s := s) (u := (s.recordCounted rest more).sealedEvent g.ref) (by simp; rfl)]
    refine (becomes_finish _).trans (becomes_of_fields ?_ ?_ ?_ rfl ?_ ?_ ?_ ?_ ?_ ?_ ?_ ?_ ?_ ?_ ?_ ?_ ?_)
    all_goals simp [State.recordCounted]

/-- Settles O23: an ENTRY or FILLER acknowledged OK, and a COMMIT whose group becomes SEALED. -/
theorem recordAcknowledgementSealsAndCounts : Obligations.RecordAcknowledgementSealsAndCounts := by
  unfold Obligations.RecordAcknowledgementSealsAndCounts
  refine ⟨fun s e rest r more => recordCounted_leads,
    fun s e rest r more g p st hlive haw hpurpose hout hkind hg hwaits hp hphase => ?_⟩
  obtain ⟨t, hexec, ⟨hgroups, hplaces, hresponses, hindex, howes⟩, hanswered, hmgmt, hbecomes⟩ :=
    commitSealed_leads hlive haw hpurpose hout hkind hg hwaits
  rw [findGroup_ref hg] at hgroups hplaces
  refine ⟨t, hexec, hanswered st p hp hphase, by rw [hresponses]; rfl, ?_, fun o => ?_, hindex, howes, hgroups, hmgmt, hbecomes⟩
  · exact findGroup_update (f := fun x => { x with state := .sealed, commitResponse := none }) (fun _ => rfl) hg hgroups
  · rw [findGroup_ref hg]
    exact (hplaces o).1

end Sys2Proof.Machine
end

section
/-! SUPPORT. The bounds of the queues under one operation after another (R45, R105, R139, R181). -/

namespace Sys2Proof.Machine

set_option Elab.async false

/-! ### The four bounds together -/

/-- The four bounds pass from `s` to `t`, each without the others. -/
structure KeepsBounds (s t : State) : Prop where
  events : EventLaw s → EventLaw t
  places : PlaceLaw s → PlaceLaw t
  outstanding : OutstandingLaw s → OutstandingLaw t
  queue : QueueLaw s → QueueLaw t

theorem KeepsBounds.refl (s : State) : KeepsBounds s s := ⟨id, id, id, id⟩

theorem KeepsBounds.trans {s t u : State} (h : KeepsBounds s t) (h' : KeepsBounds t u) : KeepsBounds s u :=
  ⟨h'.events ∘ h.events, h'.places ∘ h.places, h'.outstanding ∘ h.outstanding, h'.queue ∘ h.queue⟩

theorem KeepsBounds.ite {s t u : State} {c : Prop} [Decidable c] (ht : KeepsBounds s t) (hu : KeepsBounds s u) :
    KeepsBounds s (if c then t else u) := by
  split
  · exact ht
  · exact hu

/-- An operation under which no queue grows. -/
theorem KeepsBounds.of_le {s t : State}
    (he : t.mgmt.events.length ≤ s.mgmt.events.length := by simp)
    (hp : ∀ st, (getV t.ports st).places.length ≤ (getV s.ports st).places.length := by simp)
    (hm : t.mem.outstanding.length ≤ s.mem.outstanding.length := by simp)
    (hq : t.journal.queue.length ≤ s.journal.queue.length := by simp) : KeepsBounds s t :=
  ⟨he.trans, fun h st => (hp st).trans (h st), hm.trans, hq.trans⟩

/-- An operation that leaves the four queues as they are. -/
theorem KeepsBounds.same {s t : State} (he : t.mgmt.events = s.mgmt.events := by simp) (hp : t.ports = s.ports := by simp)
    (hm : t.mem.outstanding = s.mem.outstanding := by simp) (hq : t.journal.queue = s.journal.queue := by simp) :
    KeepsBounds s t :=
  .of_le (he ▸ le_rfl) (fun _ => hp ▸ le_rfl) (hm ▸ le_rfl) (hq ▸ le_rfl)

theorem push_bound {m : ManagementPort} (e : Event) (h : m.events.length ≤ 32) : (m.push e).events.length ≤ 32 := by
  rw [push_events]
  split
  · simp only [List.length_append, List.length_singleton]; omega
  · exact h

/-- An operation that queues one event record and leaves the other queues as they are (R181). -/
theorem KeepsBounds.of_push {s t : State} {m : ManagementPort} {e : Event} (ht : t.mgmt = m.push e)
    (he : m.events = s.mgmt.events := by rfl) (hp : t.ports = s.ports := by simp)
    (hm : t.mem.outstanding = s.mem.outstanding := by simp) (hq : t.journal.queue = s.journal.queue := by simp) :
    KeepsBounds s t := by
  refine ⟨fun h => ?_, (KeepsBounds.same (s := s) (t := { t with mgmt := s.mgmt }) rfl hp hm hq).places, ?_, ?_⟩
  · unfold EventLaw
    rw [ht]
    exact push_bound e (he ▸ h)
  · unfold OutstandingLaw; rw [hm]; exact id
  · unfold QueueLaw; rw [hq]; exact id

/-! ### Event records and ends of commands (R177, R181) -/

theorem keepsBounds_pushEvent (s : State) (e : Event) : KeepsBounds s (s.pushEvent e) := .of_push rfl

theorem keepsBounds_endCommandWith (s : State) (r : Result) (item : Byte) (test : BitVec 4) :
    KeepsBounds s (s.endCommandWith r item test) := by
  unfold State.endCommandWith
  split
  · exact .refl s
  · exact .of_push rfl

theorem keepsBounds_endIf (s : State) (c : Command) (r : Result) : KeepsBounds s (s.endIf c r) :=
  .ite (keepsBounds_endCommandWith s r 0 0) (.refl s)

theorem keepsBounds_answerAtOnce (s : State) (code : Byte) (r : Result) (item : Byte) (test : BitVec 4) :
    KeepsBounds s (s.answerAtOnce code r item test) := .of_push rfl

/-! ### Places (R45 to R48) -/

theorem updatePlace_length (s : State) (st o : Stream) (i : Fin 4) (f : Place → Place) :
    (getV (s.updatePlace st i f).ports o).places.length = (getV s.ports o).places.length := by
  by_cases ho : o = st
  · subst ho
    rw [updatePlace_places, List.length_map]
  · rw [updatePlace_other _ _ _ _ _ ho]

theorem keepsBounds_updatePlace (s : State) (st : Stream) (i : Fin 4) (f : Place → Place) :
    KeepsBounds s (s.updatePlace st i f) :=
  .of_le (hp := fun o => (updatePlace_length s st o i f).le)

theorem keepsBounds_decline (s : State) (st : Stream) (p : Place) (reason : DeclineReason) :
    KeepsBounds s (s.decline st p reason) :=
  (keepsBounds_updatePlace s st p.index fun q => { q with phase := .ready (.declined reason), buffer := none }).trans
    (.of_push rfl (hp := rfl))

theorem keepsBounds_declineHeld (s : State) (reason : DeclineReason) (st : Stream) :
    KeepsBounds s (s.declineHeld reason st) := by
  unfold State.declineHeld
  split
  · exact .refl s
  · split
    · exact .same
    · exact KeepsBounds.trans (.same (t := s.endHold st)) (keepsBounds_decline _ st _ reason)

theorem keepsBounds_declineHeldAll (reason : DeclineReason) (sts : List Stream) (s : State) :
    KeepsBounds s (sts.foldl (State.declineHeld · reason) s) := by
  induction sts generalizing s with
  | nil => exact .refl s
  | cons st sts ih => exact (keepsBounds_declineHeld s reason st).trans (ih _)

theorem keepsBounds_retractAll (s : State) : KeepsBounds s s.retractAll :=
  .of_le (hp := by simp [State.retractAll]) (hm := le_rfl)

theorem keepsBounds_memoryError (s : State) (st : Stream) (i : Fin 4) : KeepsBounds s (s.memoryError st i) := by
  unfold State.memoryError
  split
  · exact .refl s
  · exact keepsBounds_decline s st _ .memoryError

/-- The port takes a request only while its stream has a place free (R45). -/
theorem keepsBounds_takeRequest {s : State} {r : Request} (h : s.taken r.stream < 4) : KeepsBounds s (s.takeRequest r) := by
  refine ⟨id, fun hs st => ?_, id, id⟩
  by_cases hst : st = r.stream
  · subst hst
    have hfree : (getV s.ports r.stream).places.length < 4 := h
    simp [State.takeRequest]
    omega
  · simpa [State.takeRequest, getV_setV_other _ _ _ _ hst] using hs st

/-! ### The end of an event -/

theorem keepsBounds_finish (s : State) : KeepsBounds s s.finish :=
  .of_le (hp := fun st => by rw [finish_places]; exact departures_length _)

theorem keepsBounds_dropFront (s : State) : KeepsBounds s s.dropFront :=
  .of_le (hm := by simp [State.dropFront])

theorem keepsBounds_ignore (s : State) (f : Purpose → Bool) : KeepsBounds s (s.ignore f) :=
  .of_le (hm := by simp [State.ignore])

/-! ### Discards and SEALED -/

theorem keepsBounds_discardGroup (s : State) (st : Stream) (g : Group) (reason : DiscardReason) :
    KeepsBounds s (s.discardGroup st g reason) := by
  have hfilter : KeepsBounds s { s with journal := (s.discardGroup st g reason).journal } :=
    .of_le (hq := List.length_filter_le _ _)
  exact hfilter.trans (.of_push rfl)

theorem keepsBounds_discardOpenGroup (s : State) (st : Stream) (reason : DiscardReason) :
    KeepsBounds s (s.discardOpenGroup st reason) := by
  unfold State.discardOpenGroup
  split
  · exact .refl s
  · rename_i g _
    exact (keepsBounds_discardGroup s st g reason).trans .same

theorem keepsBounds_sealedEvent (s : State) (ref : Nat) : KeepsBounds s (s.sealedEvent ref) := by
  unfold State.sealedEvent
  split
  · exact .refl s
  · exact .of_le (hp := by simp)

theorem keepsBounds_retire (s : State) (g : Group) : KeepsBounds s (s.retire g) := .same (hq := by simp [State.retire, State.recomputeLiveTail])

/-! ### Takes (R58, R75, R105) -/

theorem takeLine_queue (s : State) (st : Stream) (l : Line) (cells : List (Option Byte)) :
    (s.takeLine st l cells).journal.queue.length ≤ s.journal.queue.length + 1 := by
  unfold State.takeLine
  split
  · exact Nat.le_succ _
  · split
    · simp [State.queueEntry]
    · exact Nat.le_succ _
    · simp [State.queueEntry]

theorem takeLines_queue (s : State) (st : Stream) (r : Request) :
    (s.takeLines st r).journal.queue.length ≤ s.journal.queue.length + r.visited.length := by
  unfold State.takeLines
  generalize r.visited = lines
  induction lines generalizing s with
  | nil => exact le_rfl
  | cons l lines ih =>
    have hline := takeLine_queue s st l (r.cells l)
    have hlines := ih (s.takeLine st l (r.cells l))
    simp only [List.foldl_cons, List.length_cons]
    omega

theorem sealGroup_queue (s : State) (st : Stream) (i tag : Fin 4) :
    (s.sealGroup st i tag).journal.queue.length ≤ s.journal.queue.length + 1 := by
  unfold State.sealGroup
  split
  · exact Nat.le_succ _
  · simp

theorem sealGroup_length (s : State) (st o : Stream) (i tag : Fin 4) :
    (getV (s.sealGroup st i tag).ports o).places.length = (getV s.ports o).places.length := by
  unfold State.sealGroup
  split
  · rfl
  · exact updatePlace_length _ st o i _

/-- A write is taken only with room in the record queue for its ENTRY records and its COMMIT (R75, R77). -/
theorem keepsBounds_takeWrite {s : State} {st : Stream} {p : Place} {commit : Bool}
    (hroom : s.journal.queue.length + (p.request.visited.length + bit commit) ≤ 32) :
    KeepsBounds s (s.takeWrite st p commit) := by
  obtain ⟨u, hu, hjournal, hports, hmem, hmgmt⟩ : ∃ u : State, s.takeWrite st p commit
      = (if commit then (u.takeLines st p.request).sealGroup st p.index p.request.tag
          else (u.takeLines st p.request).makeReady st p.index (.ok []))
      ∧ u.journal = s.journal ∧ u.ports = s.ports ∧ u.mem = s.mem ∧ u.mgmt = s.mgmt := by
    refine ⟨_, rfl, ?_⟩
    split <;> simp
  have hlines := takeLines_queue u st p.request
  rw [hjournal] at hlines
  rw [hu]
  cases commit with
  | false =>
    have hjoin : KeepsBounds s (u.takeLines st p.request) := by
      refine ⟨?_, ?_, ?_, fun _ => ?_⟩
      · simp [EventLaw, hmgmt]
      · simp [PlaceLaw, hports]
      · simp [OutstandingLaw, hmem]
      · unfold QueueLaw
        omega
    exact hjoin.trans (keepsBounds_updatePlace _ st p.index _)
  | true =>
    have hseal := sealGroup_queue (u.takeLines st p.request) st p.index p.request.tag
    simp only [bit, if_true] at hroom ⊢
    refine ⟨?_, ?_, ?_, fun _ => ?_⟩
    · simp [EventLaw, hmgmt]
    · simp [PlaceLaw, hports, sealGroup_length]
    · simp [OutstandingLaw, hmem]
    · unfold QueueLaw
      omega

theorem spaceChecks_take {s : State} {p : Profile} {e : StreamEntry} {st : Stream} {r : Request} {commit : Bool}
    (h : s.spaceChecks p e st r = .take commit) : s.shortQueue r commit = false := by
  unfold State.spaceChecks at h
  dsimp only at h
  split at h
  · cases h
  · split at h
    · cases h
    · split at h
      · rename_i hroom
        obtain rfl := Verdict.take.inj h
        simp only [Bool.not_eq_true', Bool.or_eq_false_iff] at hroom
        obtain ⟨⟨⟨-, hqueue⟩, -⟩, -⟩ := hroom
        exact hqueue
      · split at h <;> cases h

theorem classifyProtected_take {s : State} {p : Profile} {g : Region} {st : Stream} {r : Request} {commit : Bool}
    (h : s.classifyProtected p g st r = .take commit) : s.shortQueue r commit = false := by
  unfold State.classifyProtected at h
  dsimp only at h
  iterate 5
    split at h
    · cases h
  unfold State.journaledPath at h
  dsimp only at h
  split at h
  · exact spaceChecks_take h
  · split at h <;> cases h

/-- A write that the classification takes has room in the record queue (R75, R77). -/
theorem classify_take {s : State} {st : Stream} {r : Request} {commit : Bool} (h : s.classify st r = .take commit) :
    s.journal.queue.length + (r.visited.length + bit commit) ≤ 32 := by
  suffices hqueue : s.shortQueue r commit = false by simpa [State.shortQueue] using hqueue
  unfold State.classify at h
  split at h
  · cases h
  · split at h
    · cases h
    · split at h
      · cases h
      · split at h
        · cases h
        · split at h
          · unfold State.classifyRead at h
            split at h
            · cases h
            · split at h <;> cases h
          · unfold State.classifyWrite at h
            split at h
            · cases h
            · split at h
              · cases h
              · exact classifyProtected_take h

/-! ### Examinations -/

theorem keepsBounds_passThrough (s : State) (st : Stream) (p : Place) (cancel : Bool) :
    KeepsBounds s (s.passThrough st p cancel) := by
  have hend : KeepsBounds s (s.endHold st) := .same
  have hcancel : KeepsBounds s (if cancel then (s.endHold st).discardOpenGroup st .cancel else s.endHold st) :=
    .ite (hend.trans (keepsBounds_discardOpenGroup _ st .cancel)) hend
  exact (hcancel.trans (.same (t := State.handOver _ st p false) (hm := rfl))).trans (keepsBounds_updatePlace _ st p.index _)

theorem keepsBounds_mergedRead (s : State) (st : Stream) (p : Place) : KeepsBounds s (s.mergedRead st p) :=
  (KeepsBounds.same (s := s) (t := s.handOver st p true) (hm := rfl)).trans (keepsBounds_updatePlace _ st p.index _)

theorem keepsBounds_examine (s : State) (st : Stream) (p : Place) : KeepsBounds s (s.examine st p) := by
  have hend : KeepsBounds s (s.endHold st) := .same
  unfold State.examine
  cases hverdict : s.classify st p.request with
  | pass cancel => exact keepsBounds_passThrough s st p cancel
  | merged => exact keepsBounds_mergedRead s st p
  | zeroEnable => exact hend.trans (keepsBounds_updatePlace _ st p.index _)
  | decline reason => exact hend.trans (keepsBounds_decline _ st p reason)
  | hold kind waits want =>
    have hrecord : KeepsBounds s { s with holds := setV s.holds st (some (s.holdRecord st p.index kind waits)) } := .same
    have hheld : KeepsBounds s (s.holdWrite st p.index kind waits) := hrecord.trans (keepsBounds_updatePlace _ st p.index _)
    exact .ite (hheld.trans .same) hheld
  | discard why reason =>
    exact (hend.trans (keepsBounds_discardOpenGroup _ st why)).trans (keepsBounds_decline _ st p reason)
  | take commit => exact keepsBounds_takeWrite (classify_take hverdict)

theorem keepsBounds_admitNext (s : State) (st : Stream) : KeepsBounds s (s.admitNext st) := by
  unfold State.admitNext
  split
  · exact .refl s
  · exact keepsBounds_examine s st _

theorem keepsBounds_reExamine (s : State) (st : Stream) : KeepsBounds s (s.reExamine st) := by
  unfold State.reExamine
  split
  · exact .refl s
  · split
    · exact .same
    · exact KeepsBounds.trans .same (keepsBounds_examine _ st _)

end Sys2Proof.Machine
end

section
/-! SUPPORT. The bounds under faults, CLEAR_FAULT, clearings and grants. -/

namespace Sys2Proof.Machine

set_option Elab.async false

/-! ### Faults and CLEAR_FAULT (R163, R165, R166) -/

theorem keepsBounds_failClear (s : State) : KeepsBounds s s.failClear :=
  KeepsBounds.trans .same (keepsBounds_endIf _ .clearFault .failed)

theorem keepsBounds_enterFaulted (s : State) (c : FaultCause) (answered : Option CheckpointRequest) :
    KeepsBounds s (s.enterFaulted c answered) := by
  have hdeclined (u : State) (hu : KeepsBounds s u) :
      KeepsBounds s (allStreams.foldl (State.declineHeld · .engineFault) (u.pushEvent (.fault c))) :=
    (hu.trans (keepsBounds_pushEvent u _)).trans (keepsBounds_declineHeldAll .engineFault allStreams _)
  have hresume (u : State) : KeepsBounds u (if answered = some .resume then u.endIf .resume .failed else u) :=
    .ite (keepsBounds_endIf u .resume .failed) (.refl u)
  exact ((hdeclined _ .same).trans (hresume _)).trans (keepsBounds_endIf _ .restart .failed)

theorem keepsBounds_report (s : State) (c : FaultCause) (answered : Option CheckpointRequest) :
    KeepsBounds s (s.report c answered) := by
  have hjoined (u : State) (hu : KeepsBounds s u) : KeepsBounds s (u.pushEvent (.fault c)) :=
    hu.trans (keepsBounds_pushEvent u _)
  have hclear (u : State) : KeepsBounds u (if u.engine.clear.isSome then u.failClear else u) :=
    .ite (keepsBounds_failClear u) (.refl u)
  exact .ite (.ite (.refl s) ((hjoined _ .same).trans (hclear _))) (keepsBounds_enterFaulted s c answered)

theorem keepsBounds_recoveryDone (s : State) : KeepsBounds s s.recoveryDone :=
  KeepsBounds.trans .same (keepsBounds_pushEvent _ _)

theorem keepsBounds_finishClear (s : State) (answered : Option CheckpointRequest) : KeepsBounds s (s.finishClear answered) := by
  have hactivate (u : State) : KeepsBounds u (if answered = some .resume then u.activate else u) := .ite .same (.refl u)
  have hdone (u : State) : KeepsBounds u (if answered = some .recovery then u.recoveryDone else u) :=
    .ite (keepsBounds_recoveryDone u) (.refl u)
  have hquiesced (u : State) (target : EngineState) :
      KeepsBounds u (if target = .quiesced then u.pushEvent (.state .quiesced) else u) :=
    .ite (keepsBounds_pushEvent u _) (.refl u)
  have hends (u : State) : KeepsBounds u (u.endIf .clearFault .done).distanceTrigger.quiesceTest :=
    (keepsBounds_endIf u .clearFault .done).trans .same
  exact ((((hactivate s).trans (hdone _)).trans (.trans .same (keepsBounds_pushEvent _ _))).trans (hquiesced _ _)).trans (hends _)

theorem keepsBounds_anchorStep (s : State) : KeepsBounds s s.anchorStep := by
  unfold State.anchorStep
  split
  · exact .same
  · exact KeepsBounds.trans .same (keepsBounds_finishClear _ none)

theorem keepsBounds_applyStep (s : State) : KeepsBounds s s.applyStep := by
  unfold State.applyStep
  split
  · split
    · exact KeepsBounds.trans .same (keepsBounds_anchorStep _)
    · exact .ite .same .same
  · exact keepsBounds_anchorStep s

theorem keepsBounds_journalStep (s : State) : KeepsBounds s s.journalStep := by
  unfold State.journalStep
  split
  · split
    · exact KeepsBounds.trans .same (keepsBounds_applyStep _)
    · exact .same
  · exact keepsBounds_applyStep s

theorem keepsBounds_continueClear (s : State) : KeepsBounds s s.continueClear := by
  unfold State.continueClear
  split
  · exact .refl s
  · split
    · exact KeepsBounds.trans .same (keepsBounds_applyStep _)
    · exact .refl s
  · split
    · exact KeepsBounds.trans .same (keepsBounds_anchorStep _)
    · exact .ite .same (.refl s)
  · exact .refl s

/-! ### Answers to checkpoint requests -/

theorem keepsBounds_announce (s : State) (target : EngineState) : KeepsBounds s (s.announce target) :=
  .ite (keepsBounds_pushEvent s _) (.refl s)

theorem keepsBounds_answerRequest (s : State) (r : CheckpointRequest) : KeepsBounds s (s.answerRequest r) := by
  cases r with
  | quiesce => exact KeepsBounds.trans .same (keepsBounds_announce _ _)
  | resume =>
    have hentered : KeepsBounds s ((s.activate).enterOnSuccess .online) := .same
    have hends := (hentered.trans (keepsBounds_announce _ .online)).trans (keepsBounds_endIf _ .resume .done)
    exact hends.trans (.same (t := State.oweQuiesce _))
  | recovery =>
    have hentered : KeepsBounds s (s.enterOnSuccess .online) := .same
    exact (hentered.trans (keepsBounds_recoveryDone _)).trans (keepsBounds_endIf _ .restart .done)

/-- A landed checkpoint answers its request, and then the distance trigger is evaluated. -/
theorem keepsBounds_answered {s u : State} (r : Option CheckpointRequest) (h : KeepsBounds s u) :
    KeepsBounds s (r.elim u u.answerRequest).distanceTrigger := by
  refine (h.trans ?_).trans (.same (s := r.elim u u.answerRequest))
  cases r with
  | none => exact .refl u
  | some r => exact keepsBounds_answerRequest u r

/-! ### Clearings and drains (R144, R160, R171) -/

theorem keepsBounds_clearBlocks (s : State) : KeepsBounds s s.clearBlocks :=
  .of_le (hm := Nat.zero_le _) (hq := Nat.zero_le _)

theorem keepsBounds_restartClearing (s : State) : KeepsBounds s s.restartClearing :=
  .of_le (hm := Nat.zero_le _) (hq := Nat.zero_le _)

theorem keepsBounds_formatClearing (s : State) (w : FormatWork) : KeepsBounds s (s.formatClearing w) := by
  unfold State.formatClearing
  refine (keepsBounds_clearBlocks s).trans ?_
  dsimp only
  split
  · exact KeepsBounds.trans .same (keepsBounds_endCommandWith _ _ _ _)
  · exact .same

theorem keepsBounds_drainCheck (s : State) : KeepsBounds s s.drainCheck := by
  unfold State.drainCheck
  split
  · split
    · exact keepsBounds_formatClearing s _
    · exact keepsBounds_restartClearing s
  · exact .refl s

theorem keepsBounds_beginDrain (s : State) : KeepsBounds s s.beginDrain :=
  KeepsBounds.trans .same (keepsBounds_drainCheck _)

/-! ### Grants (R139, R140) -/

/-- At most one request joins the outstanding list; no other queue grows. -/
structure IssuesOne (s t : State) : Prop where
  mgmt : t.mgmt = s.mgmt := by simp
  places : ∀ st, (getV t.ports st).places.length = (getV s.ports st).places.length := by simp
  outstanding : t.mem.outstanding.length ≤ s.mem.outstanding.length + 1 := by simp [State.issue]
  queue : t.journal.queue.length ≤ s.journal.queue.length := by simp

theorem issuesOne_refl (s : State) : IssuesOne s s where
  outstanding := Nat.le_succ _

/-- Issuing while fewer than 16 requests are outstanding keeps the bounds (R139, R140). -/
theorem IssuesOne.keepsBounds {s t : State} (h : IssuesOne s t) (hroom : s.mem.outstanding.length < 16) : KeepsBounds s t where
  events := by simp [EventLaw, h.mgmt]
  places hs st := (h.places st).le.trans (hs st)
  outstanding _ := h.outstanding.trans hroom
  queue := h.queue.trans

theorem issueRecord_issuesOne (s : State) : IssuesOne s s.issueRecord := by
  unfold State.issueRecord
  split
  · exact issuesOne_refl s
  · rename_i hqueue
    exact { queue := by simp [hqueue] }

theorem issueRewrite_issuesOne (s : State) : IssuesOne s s.issueRewrite := by
  unfold State.issueRewrite
  split
  · exact issuesOne_refl s
  · exact {}

theorem issueHomeWrite_issuesOne (s : State) : IssuesOne s s.issueHomeWrite := by
  unfold State.issueHomeWrite
  split
  · exact issuesOne_refl s
  · split
    · exact issuesOne_refl s
    · exact {}

theorem issuePath_issuesOne (s : State) : IssuesOne s s.issuePath := by
  unfold State.issuePath
  split
  · exact issuesOne_refl s
  · dsimp only
    split
    · exact { places := fun o => by rw [State.capture, updatePlace_length]; simp }
    · exact {}

theorem issueTurn_issuesOne (s : State) (turn : CheckpointTurn) : IssuesOne s (s.issueTurn turn) := by
  have half (second : Bool) : IssuesOne s (s.issueRewriteHalf second) := by
    unfold State.issueRewriteHalf
    split
    · exact issuesOne_refl s
    · exact {}
  cases turn with
  | first => exact { outstanding := by simp [State.issueTurn, State.issueCheckpoint, State.issue] }
  | second =>
    unfold State.issueTurn State.issueSecondHalf
    dsimp only
    split
    · exact issuesOne_refl s
    · exact {}
  | rewriteFirst => exact half false
  | rewriteSecond => exact half true

theorem issueRecovery_issuesOne (s : State) (x : Purpose × MemRequest) : IssuesOne s (s.issueRecovery x) where
  outstanding := by
    unfold State.issueRecovery
    split <;> simp [State.issue]

theorem issueWork_issuesOne (s : State) (w : ServiceWork) : IssuesOne s (s.issueWork w) := by
  have hchosen {α : Type} (x : Option α) (f : α → State) (hf : ∀ a, IssuesOne s (f a)) : IssuesOne s (x.elim s f) := by
    cases x with
    | none => exact issuesOne_refl s
    | some a => exact hf a
  have hordered {t : State} (h : IssuesOne { s with service := { s.service with readyOrder := s.service.readyOrder.erase w } } t) :
      IssuesOne s t := ⟨h.mgmt, h.places, h.outstanding, h.queue⟩
  cases w with
  | checkpoint => exact hchosen _ _ fun turn => hordered (issueTurn_issuesOne _ turn)
  | recovery => exact hchosen _ _ fun x => hordered (issueRecovery_issuesOne _ x)
  | format => exact hchosen _ _ fun x => hordered { outstanding := by simp [State.issueFormat, State.issue] }
  | digest => exact hchosen _ _ fun x => hordered { outstanding := by simp [State.issueDigest, State.issue] }

theorem grantTo_issuesOne (s : State) (r : Requester) : IssuesOne s (s.grantTo r) := by
  cases r with
  | journalWriter =>
    dsimp only [State.grantTo]
    split
    · exact issueRecord_issuesOne s
    · exact issueRewrite_issuesOne s
  | applyEngine => exact issueHomeWrite_issuesOne s
  | requestPath => exact issuePath_issuesOne s
  | serviceEngine =>
    dsimp only [State.grantTo]
    cases s.presentedWork with
    | none => exact issuesOne_refl s
    | some w => exact issueWork_issuesOne s w

/-- The arbiter grants only while fewer than 16 requests are outstanding (R139, R140). -/
theorem arbiterChoice_room {s : State} {x : Requester × Bool} (h : s.arbiterChoice = some x) : s.mem.outstanding.length < 16 := by
  unfold State.arbiterChoice at h
  split at h
  · rename_i hfree
    simp only [Bool.and_eq_true, decide_eq_true_eq] at hfree
    exact hfree.2
  · cases h

theorem keepsBounds_grant (s : State) : KeepsBounds s s.grant := by
  unfold State.grant
  split
  · exact .refl s
  · rename_i r byRotation hchoice
    have hmove : (s.movePointer r byRotation).mem.outstanding = s.mem.outstanding := by
      unfold State.movePointer
      split <;> rfl
    have hmoved : KeepsBounds s (s.movePointer r byRotation) := .same (hm := hmove)
    exact hmoved.trans ((grantTo_issuesOne _ r).keepsBounds (by rw [hmove]; exact arbiterChoice_room hchoice))

end Sys2Proof.Machine
end

section
/-! SUPPORT. The bounds under completions, recovery and commands. -/

namespace Sys2Proof.Machine

set_option Elab.async false

/-! ### Completions of the Journal Writer, the Apply Engine and the Checkpoint Logic -/

theorem keepsBounds_recordDurable (s : State) (r : IssuedRecord) : KeepsBounds s (s.recordDurable r) :=
  .ite (KeepsBounds.trans .same (keepsBounds_sealedEvent _ r.group)) .same

theorem keepsBounds_recordOk (s : State) : KeepsBounds s s.recordOk := by
  unfold State.recordOk
  split
  · exact .refl s
  · rename_i r rest _
    have hleft : KeepsBounds s { s with journal := { s.journal with outstanding := rest } } := .same
    exact ((hleft.trans (keepsBounds_recordDurable _ r)).trans .same).trans (keepsBounds_continueClear _)

theorem keepsBounds_recordFailed (s : State) : KeepsBounds s s.recordFailed := by
  unfold State.recordFailed
  split
  · exact .refl s
  · refine KeepsBounds.trans ?_ (keepsBounds_report _ .journalWrite none)
    exact .ite .same .same

theorem keepsBounds_rewriteDone (s : State) (st : MemStatus) : KeepsBounds s (s.rewriteDone st) := by
  unfold State.rewriteDone
  split
  · exact .refl s
  · rename_i r rest _
    refine KeepsBounds.trans ?_ (keepsBounds_continueClear _)
    refine KeepsBounds.trans ?_ (keepsBounds_recordDurable _ r)
    exact .ite .same .same
  · exact .ite (keepsBounds_failClear s) (.refl s)

theorem keepsBounds_homeWriteOk (s : State) : KeepsBounds s s.homeWriteOk := by
  unfold State.homeWriteOk
  split
  · exact .refl s
  · refine KeepsBounds.trans ?_ (keepsBounds_continueClear _)
    exact .ite (KeepsBounds.trans .same (keepsBounds_retire _ _)) .same

theorem keepsBounds_homeWriteFailed (s : State) : KeepsBounds s s.homeWriteFailed := by
  unfold State.homeWriteFailed
  split
  · exact .refl s
  · refine KeepsBounds.trans ?_ (keepsBounds_continueClear _)
    exact .ite .same (.ite (KeepsBounds.trans .same (keepsBounds_failClear _))
      (KeepsBounds.trans .same (keepsBounds_report _ .applyWrite none)))

theorem keepsBounds_firstHalfDone (s : State) (rewrite : Bool) (st : MemStatus) :
    KeepsBounds s (s.firstHalfDone rewrite st) := by
  unfold State.firstHalfDone
  split
  · split
    · exact .refl s
    · exact .ite (.ite (KeepsBounds.trans .same (keepsBounds_failClear _)) .same) .same
  · exact .same

theorem keepsBounds_checkpointOk (s : State) : KeepsBounds s s.checkpointOk := by
  unfold State.checkpointOk
  split
  · exact .refl s
  · exact keepsBounds_answered _ .same

theorem keepsBounds_rewriteOk (s : State) : KeepsBounds s s.rewriteOk := by
  unfold State.rewriteOk
  split
  · exact .refl s
  · rename_i r _
    exact .ite (KeepsBounds.trans .same (keepsBounds_finishClear _ r.answers)) (keepsBounds_answered r.answers .same)

theorem keepsBounds_checkpointFailed (s : State) : KeepsBounds s s.checkpointFailed := by
  unfold State.checkpointFailed
  split
  · exact .refl s
  · rename_i f _
    exact KeepsBounds.trans .same (keepsBounds_report _ .checkpointWrite f.answers)

theorem keepsBounds_rewriteFailed (s : State) : KeepsBounds s s.rewriteFailed :=
  .ite (KeepsBounds.trans .same (keepsBounds_failClear _)) .same

/-! ### Completions of the request path (R38, R142) -/

theorem keepsBounds_passDone (s : State) (c : Completion) (p : Purpose) : KeepsBounds s (s.passDone c p) := by
  unfold State.passDone
  split
  · split
    · exact keepsBounds_updatePlace s _ _ _
    · exact keepsBounds_memoryError s _ _
  · exact .refl s

theorem keepsBounds_homeReadDone (s : State) (c : Completion) (p : Purpose) : KeepsBounds s (s.homeReadDone c p) := by
  unfold State.homeReadDone
  split
  · split
    · exact keepsBounds_updatePlace s _ _ _
    · exact keepsBounds_memoryError s _ _
  · exact .refl s

/-! ### Recovery -/

theorem keepsBounds_recoveryFault (s : State) (c : FaultCause) : KeepsBounds s (s.recoveryFault c) :=
  (keepsBounds_ignore s Purpose.isRecovery).trans (keepsBounds_report _ c none)

theorem keepsBounds_chooseAnchors (s : State) : KeepsBounds s s.chooseAnchors := by
  unfold State.chooseAnchors
  split
  · split
    · exact KeepsBounds.trans .same (keepsBounds_endIf _ .restart .done)
    · exact .same (hq := rfl)
  · exact .refl s

theorem keepsBounds_anchorReadDone (s : State) (c : Completion) : KeepsBounds s (s.anchorReadDone c) := by
  unfold State.anchorReadDone
  split
  · exact KeepsBounds.trans .same (keepsBounds_recoveryFault _ .recoveryRead)
  · exact KeepsBounds.trans .same (keepsBounds_chooseAnchors _)

theorem keepsBounds_walkOn (s : State) : KeepsBounds s s.walkOn := by
  unfold State.walkOn
  split
  · exact .refl s
  · exact .ite (.same (hq := rfl)) (.refl s)

theorem keepsBounds_fixHead (s : State) (h : Word) : KeepsBounds s (s.fixHead h) :=
  ((keepsBounds_ignore s Purpose.isScanRead).trans .same).trans (keepsBounds_walkOn _)

theorem keepsBounds_scanDone (s : State) (seq : Word) (c : Completion) : KeepsBounds s (s.scanDone seq c) := by
  unfold State.scanDone
  split
  · exact .ite (KeepsBounds.trans .same (keepsBounds_fixHead _ _)) .same
  · exact .ite (keepsBounds_recoveryFault s _) (keepsBounds_fixHead s seq)

theorem keepsBounds_replayed (s : State) (g : Group) : KeepsBounds s (s.replayed g) :=
  KeepsBounds.trans .same (keepsBounds_walkOn _)

theorem keepsBounds_countCheck (s : State) (p : Replay) : KeepsBounds s (s.countCheck p) := by
  unfold State.countCheck
  split
  · exact .refl s
  · exact .ite (.ite (KeepsBounds.trans .same (keepsBounds_replayed _ _)) .same) (keepsBounds_recoveryFault s _)

theorem keepsBounds_collectOn (s : State) (p : Replay) : KeepsBounds s (s.collectOn p) :=
  .ite (KeepsBounds.trans .same (keepsBounds_countCheck _ p)) .same

theorem keepsBounds_beginReplay (s : State) (seq : Word) (stream : Byte) (number commit entries slots : Word) :
    KeepsBounds s (s.beginReplay seq stream number commit entries slots) :=
  ((keepsBounds_ignore s Purpose.isWalkRead).trans .same).trans (keepsBounds_collectOn _ _)

theorem keepsBounds_walkDone (s : State) (seq : Word) (c : Completion) : KeepsBounds s (s.walkDone seq c) := by
  unfold State.walkDone
  split
  · exact keepsBounds_recoveryFault s _
  · split
    · exact .ite (KeepsBounds.trans .same (keepsBounds_beginReplay _ _ _ _ _ _ _)) (KeepsBounds.trans .same (keepsBounds_walkOn _))
    · exact KeepsBounds.trans .same (keepsBounds_walkOn _)
    · exact KeepsBounds.trans .same (keepsBounds_walkOn _)

theorem keepsBounds_collectDone (s : State) (seq : Word) (c : Completion) : KeepsBounds s (s.collectDone seq c) := by
  unfold State.collectDone
  split
  · dsimp only
    split
    · split
      · split
        · rename_i t ht
          rw [State.collectEntry_keeps ht]
          exact KeepsBounds.trans .same (keepsBounds_collectOn _ _)
        · exact keepsBounds_recoveryFault s _
      · exact keepsBounds_collectOn s _
    · exact keepsBounds_collectOn s _
    · exact keepsBounds_collectOn s _
  · exact keepsBounds_recoveryFault s _
  · exact .refl s

theorem keepsBounds_replayWriteOk (s : State) : KeepsBounds s s.replayWriteOk := by
  unfold State.replayWriteOk
  split
  · exact .ite (KeepsBounds.trans .same (keepsBounds_replayed _ _)) .same
  · exact .refl s

/-! ### Commands -/

theorem keepsBounds_offer {f : State → State} (hf : ∀ u, KeepsBounds u (f u)) (s : State) : KeepsBounds s (s.offer f) :=
  .ite .same (hf s)

/-- An operation whose last act is the answer to its command. -/
theorem KeepsBounds.answered {s u : State} (h : KeepsBounds s u) (code : Byte) (r : Result) (item : Byte) (test : BitVec 4) :
    KeepsBounds s (u.answerAtOnce code r item test) := h.trans (keepsBounds_answerAtOnce u code r item test)

theorem keepsBounds_takeRunning (s : State) (c : Command) : KeepsBounds s (s.takeRunning c) := .same (he := rfl)

theorem keepsBounds_quiesce (s : State) : KeepsBounds s s.quiesce := by
  unfold State.quiesce
  split
  · exact KeepsBounds.answered .same _ _ _ _
  · exact .answered (.refl s) _ _ _ _
  · exact .answered (.refl s) _ _ _ _
  · exact .ite (KeepsBounds.answered .same _ _ _ _) (.answered (.refl s) _ _ _ _)
  · exact .answered (.refl s) _ _ _ _
  · exact .answered (.refl s) _ _ _ _

theorem keepsBounds_resume (s : State) : KeepsBounds s s.resume := by
  unfold State.resume
  split
  · split
    · exact keepsBounds_answerAtOnce s _ _ _ _
    · have hcopied : KeepsBounds s { s with engine := { s.engine with activation := some s.engine.staging } } := .same
      exact (hcopied.trans (keepsBounds_takeRunning _ .resume)).trans .same
  · exact keepsBounds_answerAtOnce s _ _ _ _

theorem keepsBounds_discardStream (x : State × List Line) (st : Stream) : KeepsBounds x.1 (State.discardStream x st).1 := by
  unfold State.discardStream
  split
  · exact .refl x.1
  · rename_i g _
    exact (keepsBounds_discardGroup x.1 st g .management).trans (keepsBounds_declineHeld _ .discarded st)

theorem keepsBounds_discardStreams (sts : List Stream) (x : State × List Line) :
    KeepsBounds x.1 (sts.foldl State.discardStream x).1 := by
  induction sts generalizing x with
  | nil => exact .refl x.1
  | cons st sts ih => exact (keepsBounds_discardStream x st).trans (ih _)

theorem keepsBounds_discardOpen (s : State) : KeepsBounds s s.discardOpen := by
  have hdiscarded : KeepsBounds s (State.afterDiscard (allStreams.foldl State.discardStream (s, [])).1
      (allStreams.foldl State.discardStream (s, [])).2) := (keepsBounds_discardStreams allStreams (s, [])).trans .same
  exact .ite (.answered (.ite (.refl s) hdiscarded) _ _ _ _) (keepsBounds_answerAtOnce s _ _ _ _)

theorem keepsBounds_stageFromActive (s : State) : KeepsBounds s s.stageFromActive := by
  unfold State.stageFromActive
  split
  · exact keepsBounds_answerAtOnce s _ _ _ _
  · exact .ite (keepsBounds_answerAtOnce s _ _ _ _) (KeepsBounds.answered .same _ _ _ _)

theorem keepsBounds_clearFault (s : State) : KeepsBounds s s.clearFault :=
  .ite ((keepsBounds_takeRunning s .clearFault).trans (keepsBounds_journalStep _)) (keepsBounds_answerAtOnce s _ _ _ _)

theorem keepsBounds_closeDigest (s : State) (d : DigestRecord) : KeepsBounds s (s.closeDigest d) :=
  KeepsBounds.trans .same (keepsBounds_ignore _ Purpose.isDigestRead)

theorem keepsBounds_digest (s : State) : KeepsBounds s s.digest :=
  .ite (keepsBounds_answerAtOnce s _ _ _ _) (.ite (keepsBounds_answerAtOnce s _ _ _ _)
    (.ite (keepsBounds_answerAtOnce s _ _ _ _) (KeepsBounds.trans .same (keepsBounds_takeRunning _ .digest))))

theorem keepsBounds_abortRunningDigest (s : State) : KeepsBounds s s.abortRunningDigest := by
  unfold State.abortRunningDigest
  split
  · exact .refl s
  · exact (keepsBounds_closeDigest s _).trans (keepsBounds_endIf _ .digest .aborted)

theorem keepsBounds_abortDigest (s : State) : KeepsBounds s s.abortDigest :=
  .ite (keepsBounds_abortRunningDigest s) (.ite (.refl s) (keepsBounds_answerAtOnce s _ _ _ _))

theorem keepsBounds_digestComplete (s : State) (d : DigestRecord) : KeepsBounds s (s.digestComplete d) :=
  (keepsBounds_closeDigest s d).trans (.of_push rfl (hm := rfl))

theorem keepsBounds_digestReadDone (s : State) (c : Completion) : KeepsBounds s (s.digestReadDone c) := by
  unfold State.digestReadDone
  split
  · exact .refl s
  · split
    · exact (keepsBounds_closeDigest s _).trans (keepsBounds_endIf _ .digest .failed)
    · exact .ite (KeepsBounds.trans .same (keepsBounds_digestComplete _ _)) .same

theorem keepsBounds_restart (s : State) : KeepsBounds s s.restart := by
  have hended : KeepsBounds s (s.abortRunningDigest.endCommand .aborted) :=
    (keepsBounds_abortRunningDigest s).trans (keepsBounds_endCommandWith _ .aborted 0 0)
  have hretracted := (hended.trans (keepsBounds_takeRunning _ .restart)).trans (keepsBounds_retractAll _)
  exact hretracted.trans (.trans .same (keepsBounds_beginDrain _))

theorem keepsBounds_formatAccepted (s : State) (w : FormatWork) : KeepsBounds s (s.formatAccepted w) := by
  unfold State.formatAccepted
  split
  · have hretracted := (keepsBounds_takeRunning s .format).trans (keepsBounds_retractAll _)
    exact hretracted.trans (.trans .same (keepsBounds_beginDrain _))
  · dsimp only
    split
    · exact KeepsBounds.answered .same _ _ _ _
    · have hemptied : KeepsBounds s s.withNoRecovery := .same
      exact (hemptied.trans (keepsBounds_takeRunning _ .format)).trans .same

theorem keepsBounds_format (s : State) : KeepsBounds s s.format :=
  .ite (keepsBounds_answerAtOnce s _ _ _ _) (.ite (keepsBounds_answerAtOnce s _ _ _ _) (keepsBounds_formatAccepted s _))

theorem keepsBounds_formatDone (s : State) (w : FormatWork) : KeepsBounds s (s.formatDone w) := by
  have hformatted (u : State) (hu : KeepsBounds s u) :
      KeepsBounds s ((u.pushEvent (.state .online)).endIf .format .done).oweQuiesce :=
    ((hu.trans (keepsBounds_pushEvent u (.state .online))).trans (keepsBounds_endIf _ .format .done)).trans
      .same
  exact hformatted _ (.of_le (hq := Nat.zero_le _))

theorem keepsBounds_formatFailed (s : State) : KeepsBounds s s.formatFailed := by
  have hfailed (u : State) (hu : KeepsBounds s u) :
      KeepsBounds s ((u.ignore (· == .formatWrite)).endIf .format .failed).oweQuiesce :=
    ((hu.trans (keepsBounds_ignore u (· == .formatWrite))).trans (keepsBounds_endIf _ .format .failed)).trans
      .same
  exact hfailed _ (.of_le (hq := Nat.zero_le _))

theorem keepsBounds_formatWriteDone (s : State) (st : MemStatus) : KeepsBounds s (s.formatWriteDone st) := by
  unfold State.formatWriteDone
  split
  · exact .refl s
  · exact keepsBounds_formatFailed s
  · exact .ite (KeepsBounds.trans .same (keepsBounds_formatDone _ _)) .same

theorem keepsBounds_offerCode (s : State) (code : Byte) : KeepsBounds s (s.offerCode code) := by
  unfold State.offerCode
  split
  · exact keepsBounds_offer keepsBounds_quiesce s
  · exact keepsBounds_offer keepsBounds_resume s
  · exact keepsBounds_offer keepsBounds_discardOpen s
  · exact keepsBounds_offer keepsBounds_clearFault s
  · exact keepsBounds_restart s
  · exact keepsBounds_offer keepsBounds_format s
  · exact keepsBounds_offer keepsBounds_digest s
  · exact keepsBounds_abortDigest s
  · exact keepsBounds_offer keepsBounds_stageFromActive s
  · exact keepsBounds_offer (fun u => keepsBounds_answerAtOnce u code .badArgument 0 0) s

end Sys2Proof.Machine
end

section
/-! The bounds of the queues: every command keeps them, and leaves no ready response at a front (O56). -/

namespace Sys2Proof.Machine

set_option Elab.async false

/-! ### Frames of the management port (R175, R180) -/

theorem keepsBounds_popCaptured (s : State) (c : Option Captured) : KeepsBounds s (s.popCaptured c) := by
  cases c with
  | none => exact .same (he := rfl)
  | some c => exact .of_le (he := by simp [State.popCaptured, State.withMgmt])

theorem keepsBounds_writeRegister (s : State) (n : BitVec 6) (v : Word) : KeepsBounds s (s.writeRegister n v) := by
  have hdata (w : Fin 4) : KeepsBounds s (s.writeProfileData w v) := .same
  unfold State.writeRegister
  split
  · exact keepsBounds_offerCode s _
  · exact .same (he := rfl)
  · exact .same (he := rfl)
  · exact .same (he := rfl)
  · exact .same (he := rfl)
  · exact .ite (.same (he := rfl)) (.refl s)
  · exact .same (he := rfl)
  · exact .same (he := rfl)
  · exact hdata 0
  · exact hdata 1
  · exact hdata 2
  · exact hdata 3
  · exact .refl s

theorem keepsBounds_withFrame (s : State) (f : Option Frame) : KeepsBounds s (s.withFrame f) := .same (he := rfl)

theorem keepsBounds_sampleFrame (s : State) (f : Frame) : KeepsBounds s (s.sampleFrame f) :=
  .ite (.ite (.same (he := rfl)) (keepsBounds_withFrame s _)) (keepsBounds_withFrame s _)

theorem keepsBounds_completeFrame (s : State) (f : Frame) : KeepsBounds s (s.completeFrame f) :=
  .ite (keepsBounds_writeRegister s _ _) (.ite (keepsBounds_popCaptured s _) (.refl s))

theorem keepsBounds_clockInto (s : State) (f : Frame) (mosi : Bool) : KeepsBounds s (s.clockInto f mosi) := by
  have hshifted : KeepsBounds s { s with out := { s.out with miso := f.shiftedBit } } := .same
  exact hshifted.trans (.ite (.refl _) (.ite (keepsBounds_sampleFrame _ _)
    (.ite ((keepsBounds_withFrame _ _).trans (keepsBounds_completeFrame _ _)) (keepsBounds_withFrame _ _))))

theorem keepsBounds_linkEvent (s : State) (v : Word) (e : FrameEvent) : KeepsBounds s (s.linkEvent v e) := by
  unfold State.linkEvent
  split
  · exact keepsBounds_writeRegister s _ v
  · exact keepsBounds_withFrame s _
  · cases s.mgmt.frame with
    | none => exact .refl s
    | some f => exact keepsBounds_clockInto s f _
  · exact keepsBounds_withFrame s none

theorem keepsBounds_popEvent (s : State) : KeepsBounds s s.popEvent :=
  (keepsBounds_popCaptured s s.headWords).trans (.same (he := rfl))

/-! ### The shells of the commands -/

/-- A whole event: the bounds pass from `s` to `t`, and no ready response comes to stand at a front (R47). -/
structure EventKeepsBounds (s t : State) : Prop where
  bounds : KeepsBounds s t
  front : NoReadyFront s → NoReadyFront t

/-- An event that leaves the ports as they are. -/
theorem KeepsBounds.event {s t : State} (h : KeepsBounds s t) (hp : t.ports = s.ports := by simp) : EventKeepsBounds s t :=
  ⟨h, fun hs => noReadyFront_of_ports hs hp⟩

/-- A conditional event whose conditions, when they hold, let its effect keep the bounds. -/
theorem happen_keepsBounds_of {s t : State} {b : Bool} {f : State → State}
    (hf : b = true → KeepsBounds s.clearOut (f s.clearOut)) (ht : happen s b f = .next t) : EventKeepsBounds s t := by
  have hclear : KeepsBounds s s.clearOut := .same
  rcases happen_cases s b f with ⟨-, hb, h⟩ | h <;> rw [h] at ht <;> obtain rfl := Host.Outcome.next.inj ht
  · exact ⟨(hclear.trans (hf hb)).trans (keepsBounds_finish _), fun _ => noReadyFront_finish _⟩
  · exact hclear.event

theorem happen_keepsBounds {s t : State} {b : Bool} {f : State → State} (hf : ∀ u, KeepsBounds u (f u))
    (ht : happen s b f = .next t) : EventKeepsBounds s t := happen_keepsBounds_of (fun _ => hf _) ht

theorem acknowledge_keepsBounds {s t : State} {serves : Purpose → Bool} {b : Bool} {f : State → State}
    (hf : ∀ u, KeepsBounds u (f u)) (ht : acknowledge s serves b f = .next t) : EventKeepsBounds s t :=
  happen_keepsBounds (fun u => .ite (keepsBounds_dropFront u) ((keepsBounds_dropFront u).trans (hf _))) ht

theorem complete_keepsBounds {s t : State} {serves : Purpose → Bool} {c : Completion} {f : Purpose → State → State}
    (hf : ∀ p u, KeepsBounds u (f p u)) (ht : complete s serves c f = .next t) : EventKeepsBounds s t := by
  unfold complete at ht
  split at ht
  · obtain rfl := Host.Outcome.next.inj ht
    exact KeepsBounds.event .same
  · split at ht
    · cases ht
    · exact happen_keepsBounds (fun u => .ite ((keepsBounds_dropFront u).trans (hf _ _)) (keepsBounds_dropFront u)) ht

/-- After a reset every queue is empty. -/
theorem coldReset_keepsBounds (s : State) {t : State} {abase : BitVec 4} (hm : t.mgmt = (State.coldReset abase).mgmt)
    (hp : t.ports = (State.coldReset abase).ports) (ho : t.mem = MemoryPort.idle) (hj : t.journal = JournalWriter.cleared none) :
    EventKeepsBounds s t := by
  have hports (st : Stream) : (getV t.ports st).places = [] := by rw [hp]; simp [State.coldReset]
  refine ⟨.of_le ?_ ?_ ?_ ?_, fun _ st p h => by rw [hports] at h; cases h⟩
  · rw [hm]; exact Nat.zero_le _
  · intro st; rw [hports]; exact Nat.zero_le _
  · rw [ho]; exact Nat.zero_le _
  · rw [hj]; exact Nat.zero_le _

/-- Every command keeps the bounds and leaves no ready response at a front. -/
theorem exec_keepsBounds {c : Instr} {s t : State} (ht : exec c s = .next t) : EventKeepsBounds s t := by
  cases c with
  | resetAssert => obtain rfl := Host.Outcome.next.inj ht; exact KeepsBounds.event .same
  | resetRelease abase =>
    obtain rfl := Host.Outcome.next.inj ht
    exact coldReset_keepsBounds (abase := abase) s rfl rfl rfl rfl
  | powerLoss =>
    obtain rfl := Host.Outcome.next.inj ht
    exact coldReset_keepsBounds (abase := s.abase) s rfl rfl rfl rfl
  | requestTake r =>
    simp only [exec, execRequestTake] at ht
    split at ht
    · refine happen_keepsBounds_of (fun hb => keepsBounds_takeRequest ?_) ht
      simp only [State.takes, Bool.and_eq_true, decide_eq_true_eq] at hb
      exact hb.2
    · cases ht
  | admission st => exact happen_keepsBounds (keepsBounds_admitNext · st) ht
  | reExamination st => exact happen_keepsBounds (keepsBounds_reExamine · st) ht
  | holdExpiry st => exact happen_keepsBounds (keepsBounds_declineHeld · .holdExpired st) ht
  | memoryGrant => exact happen_keepsBounds keepsBounds_grant ht
  | recordIssue => exact happen_keepsBounds keepsBounds_grant ht
  | capture => exact happen_keepsBounds keepsBounds_grant ht
  | passThroughGrant => exact happen_keepsBounds keepsBounds_grant ht
  | homeWriteIssue => exact happen_keepsBounds keepsBounds_grant ht
  | checkpointIssue => exact happen_keepsBounds keepsBounds_grant ht
  | serviceRequestGrant => exact happen_keepsBounds keepsBounds_grant ht
  | rewriteIssue => exact happen_keepsBounds keepsBounds_grant ht
  | recordAcknowledgement => exact acknowledge_keepsBounds keepsBounds_recordOk ht
  | recordFailure => exact acknowledge_keepsBounds keepsBounds_recordFailed ht
  | rewriteAcknowledgement st => exact acknowledge_keepsBounds (keepsBounds_rewriteDone · st) ht
  | startOfApply => exact happen_keepsBounds (f := State.startApply) (fun _ => .same) ht
  | homeWriteAcknowledgement => exact acknowledge_keepsBounds keepsBounds_homeWriteOk ht
  | applyFailure => exact acknowledge_keepsBounds keepsBounds_homeWriteFailed ht
  | checkpointAcknowledgement =>
    change execCheckpointAcknowledgement s = _ at ht
    unfold execCheckpointAcknowledgement at ht
    refine acknowledge_keepsBounds (fun u => ?_) ht
    split
    · exact keepsBounds_rewriteOk u
    · exact keepsBounds_checkpointOk u
  | checkpointFailure second =>
    change execCheckpointFailure second s = _ at ht
    unfold execCheckpointFailure at ht
    refine acknowledge_keepsBounds (fun u => ?_) ht
    split
    · exact keepsBounds_rewriteFailed u
    · exact keepsBounds_checkpointFailed u
  | anchorFirstHalfCompletion st => exact acknowledge_keepsBounds (keepsBounds_firstHalfDone · _ st) ht
  | passThroughCompletion x => exact complete_keepsBounds (fun p u => keepsBounds_passDone u x p) ht
  | homeReadDataReturn x => exact complete_keepsBounds (fun p u => keepsBounds_homeReadDone u x p) ht
  | drainCompletion => exact happen_keepsBounds (fun u => (keepsBounds_dropFront u).trans (keepsBounds_drainCheck _)) ht
  | anchorReadCompletion x => exact complete_keepsBounds (fun _ u => keepsBounds_anchorReadDone u x) ht
  | scanReadCompletion x =>
    change execScanReadCompletion x s = _ at ht
    unfold execScanReadCompletion at ht
    refine complete_keepsBounds (fun p u => ?_) ht
    split
    · exact keepsBounds_scanDone u _ x
    · exact .refl u
  | walkReadCompletion x =>
    change execWalkReadCompletion x s = _ at ht
    unfold execWalkReadCompletion at ht
    refine complete_keepsBounds (fun p u => ?_) ht
    split
    · exact keepsBounds_walkDone u _ x
    · exact keepsBounds_collectDone u _ x
    · exact .refl u
  | replayWriteCompletion st =>
    change execReplayWriteCompletion st s = _ at ht
    unfold execReplayWriteCompletion at ht
    refine acknowledge_keepsBounds (fun u => ?_) ht
    split
    · exact keepsBounds_replayWriteOk u
    · exact keepsBounds_recoveryFault u _
  | formatAnchorWriteCompletion st => exact acknowledge_keepsBounds (keepsBounds_formatWriteDone · st) ht
  | digestReadCompletion x => exact complete_keepsBounds (fun _ u => keepsBounds_digestReadDone u x) ht
  | quiesce => exact happen_keepsBounds (keepsBounds_offer keepsBounds_quiesce) ht
  | resume => exact happen_keepsBounds (keepsBounds_offer keepsBounds_resume) ht
  | discardOpen => exact happen_keepsBounds (keepsBounds_offer keepsBounds_discardOpen) ht
  | clearFault => exact happen_keepsBounds (keepsBounds_offer keepsBounds_clearFault) ht
  | restart => exact happen_keepsBounds keepsBounds_restart ht
  | format => exact happen_keepsBounds (keepsBounds_offer keepsBounds_format) ht
  | digest => exact happen_keepsBounds (keepsBounds_offer keepsBounds_digest) ht
  | abortDigest => exact happen_keepsBounds keepsBounds_abortDigest ht
  | stageFromActive => exact happen_keepsBounds (keepsBounds_offer keepsBounds_stageFromActive) ht
  | unknownCommand code => exact happen_keepsBounds (keepsBounds_offerCode · code) ht
  | eventPop => exact happen_keepsBounds keepsBounds_popEvent ht
  | intEnableWrite value => exact happen_keepsBounds (f := (State.writeIntEnable · value)) (fun _ => .same (he := rfl)) ht
  | lostClear => exact happen_keepsBounds (f := State.clearLost) (fun _ => .same (he := rfl)) ht
  | profileDataWrite w value => exact happen_keepsBounds (f := (State.writeProfileData · w value)) (fun _ => .same) ht
  | registerWrite n value => exact happen_keepsBounds (keepsBounds_linkEvent · value n) ht

/-- Settles O56: a step takes time, or runs a command, which keeps the bounds and leaves no ready response at a front. -/
theorem stepKeepsTheBounds : Obligations.StepKeepsTheBounds := by
  unfold Obligations.StepKeepsTheBounds
  rintro s t ⟨hevents, hplaces, houtstanding, hqueue, hfront⟩ ht
  have hstep : EventKeepsBounds s t := by
    unfold step at ht
    split at ht
    · obtain rfl := Host.Outcome.next.inj ht
      exact KeepsBounds.event .same
    · rename_i c rest _
      have hrest : KeepsBounds s { s with pending := rest } := .same
      obtain ⟨hbounds, hkeeps⟩ := exec_keepsBounds ht
      exact ⟨hrest.trans hbounds, hkeeps⟩
  exact ⟨hstep.bounds.events hevents, hstep.bounds.places hplaces, hstep.bounds.outstanding houtstanding,
    hstep.bounds.queue hqueue, hstep.front hfront⟩

end Sys2Proof.Machine
end

section
/-! What the request port takes and what blocks it (O5). -/

namespace Sys2Proof.Machine

set_option Elab.async false

/-- A conditional event whose conditions do not hold. -/
theorem untouched_leads {c : Instr} {s : State} {b : Bool} {f : State → State} (hexec : exec c s = happen s b f)
    (hb : b = false) : Leads c s (Untouched s) := ⟨s.clearOut, hexec.trans (happen_idle (.inr hb)), rfl⟩

/-! ### Taking a request (R43, R45) -/

theorem takes_iff (s : State) (st : Stream) : s.takes st = true
    ↔ s.engine.state ≠ .recovering ∧ s.mgmt.running ≠ some .format ∧ s.taken st < 4 := by
  simp [State.takes, State.formatRuns, and_assoc]

theorem exec_requestTake {s : State} {r : Request} (hwf : r.wf = true) :
    exec (.requestTake r) s = happen s (s.takes r.stream) (State.takeRequest · r) := if_pos hwf

/-- The request just taken waits behind the others, so it is not ready at a front. -/
theorem noReadyFront_takeRequest {s : State} (h : NoReadyFront s) (r : Request) : NoReadyFront (s.takeRequest r) := by
  intro st p hp x
  by_cases hst : st = r.stream
  · subst hst
    simp only [State.takeRequest, getV_setV_same, List.head?_append] at hp
    cases hhead : (getV s.ports r.stream).places.head? with
    | none =>
      rw [hhead] at hp
      obtain rfl := Option.some.inj hp
      exact Phase.noConfusion
    | some q =>
      rw [hhead] at hp
      obtain rfl := Option.some.inj hp
      exact h r.stream _ hhead x
  · simp only [State.takeRequest, getV_setV_other _ _ _ _ hst] at hp
    exact h st p hp x

theorem requestTake_leads {s : State} {r : Request} (hlive : Live s) (hwf : r.wf = true) (htakes : s.takes r.stream = true) :
    Leads (.requestTake r) s fun t => t.out = Outputs.none ∧ Becomes t (s.takeRequest r) :=
  leads_quiet (exec_requestTake hwf) hlive.1 htakes rfl (noReadyFront_takeRequest hlive.2 r) fun _ ht hout => ⟨hout, ht⟩

/-! ### What blocks an admission (R46), a re-examination (R67, R74) and an expiry (R73) -/

theorem blocks_iff (q : Place) : q.blocks = true
    ↔ q.phase = .held ∨ q.phase = .reading ∧ ∃ b, q.buffer = some b ∧ b.state = .waiting := by
  simp [Place.blocks, Option.any_eq_true]

theorem admits_iff (s : State) (st : Stream) : s.admits st = true ↔ s.engine.state ≠ .recovering
    ∧ s.mgmt.running ≠ some .format ∧ ∀ q ∈ (getV s.ports st).places, q.blocks = false := by
  simp [State.admits, State.formatRuns, and_assoc]

theorem nextRequest_none {s : State} {st : Stream} (h : ∀ q ∈ (getV s.ports st).places, q.phase ≠ .waiting) :
    s.nextRequest st = none := List.find?_eq_none.2 fun q hq => by simpa using h q hq

theorem admission_blocked {s : State} {st : Stream} (h : s.admits st = false ∨ s.nextRequest st = none) :
    Leads (.admission st) s (Untouched s) := by
  refine untouched_leads (b := s.admits st && (s.nextRequest st).isSome) (f := (State.admitNext · st)) rfl ?_
  rcases h with h | h <;> simp [h]

theorem reExamination_blocked {s : State} {st : Stream}
    (h : s.mgmt.running = some .format ∨ ∀ w, getV s.holds st = some w → w.due = 0) :
    Leads (.reExamination st) s (Untouched s) := by
  refine untouched_leads (b := s.owed st && !s.formatRuns) (f := (State.reExamine · st)) rfl ?_
  rcases h with h | h
  · simp [State.formatRuns, h]
  · have howed : s.owed st = false := by
      unfold State.owed
      cases hw : getV s.holds st with
      | none => rfl
      | some w => simp [h w hw]
    rw [howed]
    rfl

theorem holdExpiry_blocked {s : State} {st : Stream}
    (h : ∀ w, getV s.holds st = some w → ∀ d, w.deadline = some d → s.now < d) :
    Leads (.holdExpiry st) s (Untouched s) := by
  refine untouched_leads (b := s.expired st) (f := (State.declineHeld · .holdExpired st)) rfl ?_
  unfold State.expired
  cases hw : getV s.holds st with
  | none => rfl
  | some w =>
    rw [Option.any_some]
    cases hd : w.deadline with
    | none => rfl
    | some d => simpa using h w hw d hd

/-- Settles O5: what the request port takes, and what blocks an admission, a re-examination and an expiry. -/
theorem requestTakeAndBlocking : Obligations.RequestTakeAndBlocking := by
  unfold Obligations.RequestTakeAndBlocking
  refine ⟨fun s r => ⟨fun hlive hwf hstate hformat htaken => ?_, fun hwf hblocked => ?_, fun hwf => ?_⟩,
    fun s st _ => ⟨fun hblocked => admission_blocked ?_, reExamination_blocked, holdExpiry_blocked⟩⟩
  · exact requestTake_leads hlive hwf ((takes_iff s r.stream).2 ⟨hstate, hformat, htaken⟩)
  · refine untouched_leads (exec_requestTake hwf) (Bool.eq_false_iff.2 fun htakes => ?_)
    obtain ⟨hstate, hformat, htaken⟩ := (takes_iff s r.stream).1 htakes
    rcases hblocked with h | h | h
    · exact hstate h
    · exact hformat h
    · omega
  · exact if_neg (by simp [hwf])
  · by_cases hadmits : s.admits st = true
    · obtain ⟨hstate, hformat, hplaces⟩ := (admits_iff s st).1 hadmits
      rcases hblocked with h | h | ⟨q, hq, h⟩ | h
      · exact absurd h hstate
      · exact absurd h hformat
      · exact absurd ((blocks_iff q).2 h) (by simp [hplaces q hq])
      · exact .inr (nextRequest_none h)
    · exact .inl (by simpa using hadmits)

end Sys2Proof.Machine
end

section
/-! Requests that pass through (O7) and requests that are declined (O10). -/

namespace Sys2Proof.Machine

set_option Elab.async false

/-! ### A pass-through request (R63) -/

/-- The examination of a request that passes through and cancels nothing (R60, R63). -/
theorem exec_passes {s : State} {c : Instr} {st : Stream} {p : Place} (hlive : Live s) (hex : Examines s c st p)
    (hpass : PassesAt s st p.request false ∨ PassesAt s st p.request true ∧ s.openGroup? st = none) :
    exec c s = .next (((s.clearOut.endHold st).handOver st p false).updatePlace st p.index
      fun q => { q with phase := .passed }).finish := by
  rw [exec_of_examines hlive.1 hex]
  rcases hpass with hpass | ⟨hpass, hopen⟩
  · rw [classify_of_passesAt hpass]
    simp only [State.act, State.passThrough, endHold_paid, Bool.false_eq_true, if_false]
  · have hnone : (s.clearOut.endHold st).openGroup? st = none := hopen
    rw [classify_of_passesAt hpass]
    simp only [State.act, State.passThrough, endHold_paid, if_true, discardOpenGroup_none _ hnone]

/-- Settles O7: the request joins the request-path queue, its place is passed, its hold ends. -/
theorem passThroughIsHandedOver : Obligations.PassThroughIsHandedOver := by
  unfold Obligations.PassThroughIsHandedOver
  intro s c st p hlive hex hpass
  have hquiet := noReadyFront_updatePlace (s := (s.clearOut.endHold st).handOver st p false) hlive.2 st p.index
    (fun q => { q with phase := .passed }) fun q x => by simp
  exact ⟨_, exec_passes hlive hex hpass, out_finish_quiet hquiet, becomes_finish_quiet hquiet⟩

/-! ### A decline (R62, R73) -/

/-- An event that ends the hold of a stream and declines the request in place `p`, and does nothing else. -/
theorem declined_leads {s : State} {c : Instr} {st : Stream} {p : Place} {reason : DeclineReason} (hlive : Live s)
    (hmem : p ∈ (getV s.ports st).places)
    (hexec : exec c s = .next ((s.clearOut.endHold st).decline st p reason).finish) :
    Leads c s fun t => Declined s t st p reason ∧ Settles s t st (Place.refuse p.index reason)
      ∧ t.out.issued = none ∧ Becomes t { s with ports := t.ports, holds := setV s.holds st none, mgmt := t.mgmt } := by
  obtain ⟨hanswered, hsettles, hissued⟩ := decline_finish (v := s.clearOut.endHold st) reason hlive hmem rfl rfl
  refine ⟨_, hexec, ⟨hanswered, ?_⟩, hsettles, hissued, ?_⟩
  · rw [finish_mgmt, decline_mgmt]
    rfl
  · rw [finish_mgmt]
    exact becomes_finish _

/-- A held write that is found in its place is declined and its hold ends. -/
theorem declineHeld_of_place {s : State} {st : Stream} {h : HeldWrite} {p : Place} (reason : DeclineReason)
    (hh : getV s.holds st = some h) (hp : s.place? st h.place = some p) :
    s.declineHeld reason st = (s.endHold st).decline st p reason := by
  simp only [State.declineHeld, hh, hp]

/-- Settles O10: a decline at an examination, and the expiry of a hold. -/
theorem declinesAndHoldExpiry : Obligations.DeclinesAndHoldExpiry := by
  unfold Obligations.DeclinesAndHoldExpiry
  refine ⟨fun s c st p reason hlive hex hdeclined => declined_leads hlive (examines_mem hex) ?_,
    fun s st h d p hlive hh hd hnow hp => declined_leads hlive (place?_mem hp).1 ?_⟩
  · rw [exec_of_examines hlive.1 hex, classify_of_declinedAt hdeclined, State.act, endHold_paid]
  · have hexpired : s.expired st = true := by simp [State.expired, hh, hd, hnow]
    have hdecline := declineHeld_of_place (s := s.clearOut) .holdExpired hh hp
    change happen s (s.expired st) (State.declineHeld · .holdExpired st) = _
    rw [happen_next hlive.1 hexpired, hdecline]

end Sys2Proof.Machine
end

section
/-! Writes that are held and held again (O11). -/

namespace Sys2Proof.Machine

set_option Elab.async false

/-! ### The effect of a hold (R66, R72, R78) -/

/-- A hold changes the record, the wish for a checkpoint and the phase of the place. -/
theorem park_eq (s : State) (st : Stream) (p : Place) (kind : HoldKind) (waits : List Stream) (want : Bool) :
    s.park st p kind waits want = { s with
      holds := setV s.holds st (some (s.holdRecord st p.index kind waits))
      ckpt := { s.ckpt with pending := s.ckpt.pending || want }
      ports := (s.updatePlace st p.index fun q => { q with phase := .held }).ports } := by
  cases want with
  | false =>
    rw [Bool.or_false]
    rfl
  | true =>
    rw [Bool.or_true]
    rfl

theorem noReadyFront_park {s : State} (h : NoReadyFront s) (st : Stream) (p : Place) (kind : HoldKind) (waits : List Stream)
    (want : Bool) : NoReadyFront (s.park st p kind waits want) := by
  rw [park_eq]
  exact noReadyFront_updatePlace h st p.index (fun q => { q with phase := .held }) fun q x => by simp

/-- A write is held only under an active profile. -/
theorem profile_of_heldAt {s : State} {st : Stream} {r : Request} {pr : Profile} {waits : List Stream} {want : Bool}
    {kind : HoldKind} (h : HeldAt s st r pr waits want kind) : s.profile = some pr := by
  cases kind with
  | conflict =>
    obtain ⟨-, -, g, ⟨⟨⟨hprofile, -⟩, -⟩, -⟩, -⟩ := h
    exact hprofile
  | space =>
    obtain ⟨-, g, ⟨⟨⟨hprofile, -⟩, -⟩, -⟩, -⟩ := h
    exact hprofile
  | pipeline =>
    obtain ⟨-, -, g, ⟨⟨⟨hprofile, -⟩, -⟩, -⟩, -⟩ := h
    exact hprofile
  | quiesce =>
    obtain ⟨-, -, g, ⟨⟨hprofile, -⟩, -⟩, -⟩ := h
    exact hprofile

/-- An event that holds the request in place `p` and does nothing else to `u`, the state before it but for what is owed. -/
theorem held_leads {s u : State} {c : Instr} {st : Stream} {p : Place} {kind : HoldKind} {waits : List Stream} {want : Bool}
    (hlive : Live s) (hports : u.ports = s.ports) (hout : u.out = Outputs.none)
    (hexec : exec c s = .next (u.park st p kind waits want).finish) :
    Leads c s fun t => t.out = Outputs.none ∧ Becomes t (u.park st p kind waits want) := by
  have hquiet := noReadyFront_park (noReadyFront_of_ports hlive.2 hports) st p kind waits want
  refine ⟨_, hexec, (out_finish_quiet hquiet).trans ?_, becomes_finish_quiet hquiet⟩
  rw [park_eq]
  exact hout

/-- The record of a write held at its admission (R66, R72). -/
theorem holdRecord_new {s : State} {st : Stream} {i : Fin 4} {pr : Profile} (kind : HoldKind) (waits : List Stream)
    (hnone : getV s.holds st = none) (hprofile : s.profile = some pr) : s.holdRecord st i kind waits
      = { place := i, kind := kind, waitSet := waits, due := 0
          deadline := if pr.holdLimit = 0 then none else some (s.now + pr.holdLimit.toNat) } := by
  simp only [State.holdRecord, hnone, State.newDeadline, hprofile]

/-- The record of a write held again: its deadline stays, one re-examination less is owed (R66). -/
theorem holdRecord_again (s : State) (st : Stream) (i : Fin 4) (h : HeldWrite) (kind : HoldKind) (waits : List Stream) :
    (s.payDue st h).holdRecord st i kind waits = { h with kind := kind, waitSet := waits, due := h.due - 1 } := by
  simp [State.holdRecord, State.payDue]

/-- Settles O11: a write held at its admission, and one held again. -/
theorem holdsAndReHolds : Obligations.HoldsAndReHolds := by
  unfold Obligations.HoldsAndReHolds
  refine ⟨fun s st p pr waits want kind hlive hadmissible hnone hheld => ?_,
    fun s st h p pr waits want kind hlive hformat hh hdue hp hheld => ?_⟩
  · have hexec := exec_admission hlive.1 hadmissible
    rw [classify_of_heldAt hheld] at hexec
    obtain ⟨t, ht, hout, hbecomes⟩ := held_leads (u := s.clearOut) hlive rfl rfl hexec
    rw [park_eq, holdRecord_new (s := s.clearOut) kind waits hnone (profile_of_heldAt hheld)] at hbecomes
    exact ⟨t, ht, hout, hbecomes⟩
  · have hexec := exec_reExamination hlive.1 (by simpa [State.formatRuns] using hformat) hh hdue hp
    rw [classify_of_heldAt hheld] at hexec
    obtain ⟨t, ht, hout, hbecomes⟩ := held_leads (u := s.clearOut.payDue st h) hlive rfl rfl hexec
    rw [park_eq, holdRecord_again] at hbecomes
    simp only [State.payDue, setV_setV] at hbecomes
    exact ⟨t, ht, hout, hbecomes⟩

end Sys2Proof.Machine
end

section
/-! SUPPORT. The entry into FAULTED and the causes that join (R81, R163, R166). -/

namespace Sys2Proof.Machine

set_option Elab.async false

/-! ### The held writes are declined, stream by stream (R81) -/

/-- The event records and counters when the held write of a stream, if it has one, is declined ENGINE_FAULT (R62). -/
def State.declineRecord (s : State) (m : ManagementPort) (st : Stream) : ManagementPort :=
  (s.heldPlace st).elim m fun p =>
    ({ m with declines := m.declines + 1 }).push (.decline st p.request.addr .engineFault p.request.tag)

theorem faultEntryMgmt_eq (s : State) (c : FaultCause) :
    s.faultEntryMgmt c = allStreams.foldl s.declineRecord (s.mgmt.push (.fault c)) := by
  have hstep : s.declineRecord = fun m st => match s.heldPlace st with
      | none => m
      | some p => ({ m with declines := m.declines + 1 }).push (.decline st p.request.addr .engineFault p.request.tag) := by
    funext m st
    unfold State.declineRecord
    cases s.heldPlace st <;> rfl
  rw [hstep]
  rfl

theorem declineRecord_running (s : State) (m : ManagementPort) (st : Stream) : (s.declineRecord m st).running = m.running := by
  unfold State.declineRecord
  cases s.heldPlace st <;> simp

theorem faultEntryMgmt_running (s : State) (c : FaultCause) : (s.faultEntryMgmt c).running = s.mgmt.running := by
  have hfold (sts : List Stream) (m : ManagementPort) : (sts.foldl s.declineRecord m).running = m.running := by
    induction sts generalizing m with
    | nil => rfl
    | cons st sts ih => rw [List.foldl_cons, ih, declineRecord_running]
  rw [faultEntryMgmt_eq, hfold]
  simp

/-- What the declines of the held writes of these streams have made of `s`: the state that the loop of the entry into FAULTED
has reached. -/
structure FaultDeclining (s : State) (sts : List Stream) (t : State) : Prop where
  ports : ∀ o, getV t.ports o = if o ∈ sts then { (getV s.ports o) with places := s.placesFaulted o } else getV s.ports o
  holds : ∀ o, getV t.holds o = if o ∈ sts then none else getV s.holds o
  mgmt : t.mgmt = sts.foldl s.declineRecord s.mgmt
  rest : t = { s with ports := t.ports, holds := t.holds, mgmt := t.mgmt }

theorem placesFaulted_elim (s : State) (st : Stream) : s.placesFaulted st = (s.heldPlace st).elim (getV s.ports st).places
    fun p => (getV s.ports st).places.map (Place.refuse p.index .engineFault) := by
  unfold State.placesFaulted
  cases s.heldPlace st <;> rfl

/-- One more held write is declined. -/
theorem faultDeclining_next {s t : State} {sts : List Stream} {st : Stream} (h : FaultDeclining s sts t) (hst : st ∉ sts) :
    FaultDeclining s (sts ++ [st]) (t.declineHeld .engineFault st) := by
  have hport : getV t.ports st = getV s.ports st := by rw [h.ports st, if_neg hst]
  have hheld : t.heldPlace st = s.heldPlace st := heldPlace_congr (by rw [h.holds st, if_neg hst]) hport
  have hmgmt := h.mgmt
  refine { ports := fun o => ?_, holds := fun o => ?_, mgmt := ?_, rest := ?_ }
  · rw [declineHeld_ports, hheld, hport]
    by_cases ho : o = st
    · subst ho
      rw [if_pos (by simp), placesFaulted_elim]
      cases s.heldPlace o with
      | none => exact hport
      | some p => simp
    · have hother := h.ports o
      cases s.heldPlace st with
      | none => simpa [ho] using hother
      | some p => simpa [ho, getV_setV_other _ _ _ _ ho] using hother
  · rw [declineHeld_holds]
    by_cases ho : o = st
    · subst ho; simp
    · simp [getV_setV_other _ _ _ _ ho, h.holds o, ho]
  · rw [declineHeld_mgmt, hheld, List.foldl_append, ← hmgmt]
    rfl
  · have hrest := h.rest
    apply State.ext_fields <;> simp
    all_goals rw [hrest]

theorem faultDeclining_streams (s : State) (sts : List Stream) (hn : sts.Nodup) :
    FaultDeclining s sts (sts.foldl (State.declineHeld · .engineFault) s) := by
  induction sts using List.reverseRecOn with
  | nil => exact { ports := fun o => by simp, holds := fun o => by simp, mgmt := rfl, rest := rfl }
  | append_singleton sts st ih =>
    rw [List.nodup_append] at hn
    obtain ⟨hn, -, hdisjoint⟩ := hn
    rw [List.foldl_append]
    exact faultDeclining_next (ih hn) fun hst => hdisjoint st hst st (by simp) rfl

/-! ### The entry into FAULTED (R163) -/

/-- The state in which FAULTED has been entered, before any response leaves. -/
def State.faultEntered (u : State) (c : FaultCause) (answered : Option CheckpointRequest) (back : Option EngineState) : State :=
  { u with
    engine := u.engine.faultedWith c back
    holds := Vector.replicate 8 none
    ports := mapStreams (fun st p => { p with places := u.placesFaulted st }) u.ports
    mgmt := (if answered = some .resume then (u.faultEntryMgmt c).endsIf .resume .failed
      else u.faultEntryMgmt c).restartEnds .failed }

theorem enterFaulted_eq (u : State) (c : FaultCause) (answered : Option CheckpointRequest) :
    u.enterFaulted c answered = u.faultEntered c answered (returnStateAt u.engine.state c answered) := by
  let v : State := State.pushEvent { u with engine := u.engine.faultedWith c (returnStateAt u.engine.state c answered) } (.fault c)
  have hloop := faultDeclining_streams v allStreams (by decide)
  have hdeclined : allStreams.foldl (State.declineHeld · .engineFault) v = { u with
      engine := u.engine.faultedWith c (returnStateAt u.engine.state c answered)
      holds := Vector.replicate 8 none
      ports := mapStreams (fun st p => { p with places := u.placesFaulted st }) u.ports
      mgmt := u.faultEntryMgmt c } := by
    have hports : (allStreams.foldl (State.declineHeld · .engineFault) v).ports
        = mapStreams (fun st p => { p with places := u.placesFaulted st }) u.ports := by
      refine tables_ext _ _ fun o => ?_
      rw [hloop.ports, getV_mapStreams, if_pos (mem_allStreams o)]
      rfl
    have hholds : (allStreams.foldl (State.declineHeld · .engineFault) v).holds = Vector.replicate 8 none := by
      refine tables_ext _ _ fun o => ?_
      rw [hloop.holds, getV_replicate, if_pos (mem_allStreams o)]
    rw [hloop.rest, hports, hholds, hloop.mgmt, faultEntryMgmt_eq]
    rfl
  change State.endIf (if answered = some .resume then State.endIf (allStreams.foldl (State.declineHeld · .engineFault) v)
    .resume .failed else allStreams.foldl (State.declineHeld · .engineFault) v) .restart .failed = _
  rw [hdeclined, endIf_eq, endIf_eq]
  unfold State.faultEntered
  split <;> rfl

/-- An event that enters FAULTED. -/
theorem faultEntered_finish {u : State} {c : FaultCause} {answered : Option CheckpointRequest} {back : Option EngineState}
    (hout : u.out = Outputs.none) : FaultEntered u (u.faultEntered c answered back).finish c answered back := by
  have hplaces (st : Stream) : (getV (u.faultEntered c answered back).ports st).places = u.placesFaulted st := by
    simp [State.faultEntered]
  refine ⟨fun st => ⟨?_, ?_⟩, ?_, ?_⟩
  · rw [finish_places, hplaces]
  · rw [finish_nextIndex]
    simp [State.faultEntered]
  · have hout' : (u.faultEntered c answered back).out = Outputs.none := hout
    rw [finish_out, hout']
    simp only [hplaces]
    rfl
  · exact becomes_finish _

/-- What the entry into FAULTED does, the outputs before it do not touch. -/
theorem FaultEntered.withOut {u t : State} {c : FaultCause} {answered : Option CheckpointRequest} {back : Option EngineState}
    (h : FaultEntered u t c answered back) (out : Outputs) : FaultEntered { u with out := out } t c answered back := by
  have hplaces (st : Stream) : State.placesFaulted { u with out := out } st = u.placesFaulted st := rfl
  have hmgmt : State.faultEntryMgmt { u with out := out } c = u.faultEntryMgmt c := rfl
  unfold FaultEntered at h ⊢
  simp only [hplaces, hmgmt]
  exact h

/-- The held writes are answered when FAULTED is entered (R81). -/
theorem faultEntered_answers {u : State} {c : FaultCause} {answered : Option CheckpointRequest} {back : Option EngineState}
    {st : Stream} {h : HeldWrite} {p : Place} (hh : getV u.holds st = some h) (hp : u.place? st h.place = some p) :
    Answered (u.faultEntered c answered back).finish st p (.declined .engineFault) := by
  have hheld : u.heldPlace st = some p := by simp only [State.heldPlace, hh, Option.bind_some, hp]
  refine answered_finish (q := Place.refuse p.index .engineFault p) ?_ ?_ ?_ ?_
  · simp only [State.faultEntered, getV_mapStreams, placesFaulted_elim, hheld, Option.elim_some]
    exact List.mem_map.2 ⟨p, (place?_mem hp).1, rfl⟩
  all_goals simp [Place.refuse]

theorem report_outside {u : State} (c : FaultCause) (answered : Option CheckpointRequest) (h : u.engine.state ≠ .faulted) :
    u.report c answered = u.faultEntered c answered (returnStateAt u.engine.state c answered) := by
  rw [← enterFaulted_eq]
  exact if_neg h

/-! ### A cause that joins in FAULTED (R163, R166) -/

theorem failClear_eq {s : State} (h : s.mgmt.running = some .clearFault) : s.failClear = s.clearFailed := by
  simp only [State.failClear, endIf_eq]
  rw [endsIf_running _ h]
  rfl

theorem CauseJoins.becomes {u v t : State} {c : FaultCause} (h : CauseJoins u v c) (ht : Becomes t v) : CauseJoins u t c := by
  obtain ⟨hthere, hjoins, hends⟩ := h
  exact ⟨fun hc => ht.trans (hthere hc), fun hc hclear => ht.trans (hjoins hc hclear),
    fun hc hclear hrun => ht.trans (hends hc hclear hrun)⟩

/-- A report to the FAULTED engine leaves the ports as they are. -/
theorem report_faulted_ports {u : State} (c : FaultCause) (answered : Option CheckpointRequest) (h : u.engine.state = .faulted) :
    (u.report c answered).ports = u.ports := by
  simp only [State.report, h, if_true]
  split
  · rfl
  · split <;> simp

/-- The state in which a new cause has joined and is announced (R163). -/
def State.causeJoined (u : State) (c : FaultCause) : State :=
  { u with engine := u.engine.joinedBy c, mgmt := u.mgmt.push (.fault c) }

theorem report_new {u : State} {c : FaultCause} (answered : Option CheckpointRequest) (h : u.engine.state = .faulted)
    (hc : c ∉ u.engine.causes) : u.report c answered
      = if u.engine.clear.isSome then (u.causeJoined c).failClear else u.causeJoined c := by
  rw [State.report, if_pos h, if_neg (by simpa using hc)]
  rfl

theorem report_joins {u : State} (c : FaultCause) (answered : Option CheckpointRequest) (h : u.engine.state = .faulted) :
    CauseJoins u (u.report c answered) c := by
  refine ⟨fun hc => ?_, fun hc hclear => ?_, fun hc hclear hrun => ?_⟩
  · have hreport : u.report c answered = u := by simp [State.report, h, hc]
    rw [hreport]
    exact Becomes.refl u
  · rw [report_new answered h hc, if_neg (by simp [hclear])]
    exact Becomes.refl _
  · rw [report_new answered h hc, if_pos (Option.isSome_iff_ne_none.2 hclear),
      failClear_eq (by simpa [State.causeJoined] using hrun)]
    exact Becomes.refl _

end Sys2Proof.Machine
end

section
/-! A failed record (O24). -/

namespace Sys2Proof.Machine

set_option Elab.async false

/-- The front outstanding record has moved to the end of the failed list, and a COMMIT's group is IN_DOUBT (R110, R111). -/
def State.recordLost (s : State) (r : IssuedRecord) (more : List IssuedRecord) : State :=
  { s with
    journal := { s.journal with
      outstanding := more
      failed := s.journal.failed ++ [{ r with kind := if (s.findGroup r.group).isSome then r.kind else .filler }] }
    groups := if r.kind = .commit then s.groups.update r.group (fun g => { g with state := .inDoubt }) else s.groups }

theorem recordFailed_eq {s : State} {r : IssuedRecord} {more : List IssuedRecord} (hout : s.journal.outstanding = r :: more) :
    s.recordFailed = (s.recordLost r more).report .journalWrite none := by
  simp only [State.recordFailed, hout, State.recordLost]
  split <;> rfl

/-- The state a requester acts on when its completion comes in: the front entry has left the outstanding list. -/
def State.completing (s : State) (rest : List MemEntry) : State :=
  { s.clearOut with mem := { s.mem with outstanding := rest } }

theorem exec_recordFailure {s : State} {e : MemEntry} {rest : List MemEntry} {r : IssuedRecord} {more : List IssuedRecord}
    (hlive : Live s) (haw : Awaits s e rest) (hpurpose : e.purpose = .record) (hout : s.journal.outstanding = r :: more) :
    exec .recordFailure s = .next (((s.completing rest).recordLost r more).report .journalWrite none).finish := by
  change acknowledge s Purpose.isRecord true State.recordFailed = _
  rw [acknowledge_next hlive.1 haw (by rw [hpurpose]; rfl) rfl, dropFront_awaits haw,
    recordFailed_eq (s := { s.clearOut with mem := { s.mem with outstanding := rest } }) hout]
  rfl

/-- A running engine comes back to the state in which the fault has found it (R163). -/
theorem returnStateAt_running {state : EngineState} (c : FaultCause) (answered : Option CheckpointRequest)
    (h : state = .online ∨ state = .quiescing) : state ≠ .faulted ∧ returnStateAt state c answered = some state := by
  rcases h with rfl | rfl
  · exact ⟨by decide, rfl⟩
  · exact ⟨by decide, rfl⟩

/-- Outside FAULTED the failure of a record enters it. -/
theorem exec_recordFailure_running {s : State} {e : MemEntry} {rest : List MemEntry} {r : IssuedRecord}
    {more : List IssuedRecord} (hlive : Live s) (haw : Awaits s e rest) (hpurpose : e.purpose = .record)
    (hout : s.journal.outstanding = r :: more) (hstate : s.engine.state = .online ∨ s.engine.state = .quiescing) :
    exec .recordFailure s = .next
      (((s.completing rest).recordLost r more).faultEntered .journalWrite none (some s.engine.state)).finish := by
  obtain ⟨houtside, hback⟩ := returnStateAt_running .journalWrite none hstate
  rw [exec_recordFailure hlive haw hpurpose hout, report_outside (u := (s.completing rest).recordLost r more) _ _ houtside]
  exact congrArg (fun b => Host.Outcome.next
    (((s.completing rest).recordLost r more).faultEntered .journalWrite none b).finish) hback

/-- The entry into FAULTED leaves the groups as the failure has made them. -/
theorem faultEntered_groups (u : State) (c : FaultCause) (answered : Option CheckpointRequest) (back : Option EngineState) :
    (u.faultEntered c answered back).finish.groups = u.groups := by
  simp [State.faultEntered]

theorem faultEntered_holds (u : State) (c : FaultCause) (answered : Option CheckpointRequest) (back : Option EngineState)
    (st : Stream) : getV (u.faultEntered c answered back).finish.holds st = none := by
  simp [State.faultEntered]

/-- A failed COMMIT changes no OPEN group but its own (R110). -/
theorem recordLost_opens (s : State) (r : IssuedRecord) (more : List IssuedRecord) (st : Stream) :
    (s.openGroup? st = none → (s.recordLost r more).openGroup? st = none)
      ∧ ∀ g, s.openGroup? st = some g → (r.kind = .commit → g.ref ≠ r.group) → (s.recordLost r more).openGroup? st = some g := by
  have hopen : (s.recordLost r more).openGroup? st = if r.kind = .commit
      then (s.openGroup? st).map fun g => if g.ref = r.group then { g with state := .inDoubt } else g else s.openGroup? st := by
    unfold State.openGroup? State.recordLost
    dsimp only
    split
    · rw [GroupTable.update, getV_mapV]
    · rfl
  rw [hopen]
  refine ⟨fun hnone => by simp [hnone], fun g hg hother => ?_⟩
  split
  · rename_i hkind
    rw [hg, Option.map_some, if_neg (hother hkind)]
  · exact hg

/-- Settles O24: a failed record outside FAULTED and in it. -/
theorem recordFailureFaults : Obligations.RecordFailureFaults := by
  unfold Obligations.RecordFailureFaults
  refine ⟨fun s e rest r more hlive haw hpurpose hout hstate => ?_, fun s e rest r more hlive haw hpurpose hout hstate => ?_,
    fun s e rest r more hlive haw hpurpose hout hstate => ?_⟩
  · refine ⟨_, exec_recordFailure_running hlive haw hpurpose hout hstate, (faultEntered_finish rfl).withOut s.out,
      fun hkind g hg => ?_⟩
    refine findGroup_update (f := fun g => { g with state := .inDoubt }) (fun _ => rfl) hg ?_
    rw [faultEntered_groups]
    exact if_pos hkind
  · refine ⟨_, exec_recordFailure_running hlive haw hpurpose hout hstate, faultEntered_holds _ _ _ _, fun st => ?_,
      fun st h p hh hp => faultEntered_answers hh hp⟩
    have hopen : State.openGroup? (((s.completing rest).recordLost r more).faultEntered .journalWrite none
        (some s.engine.state)).finish st = ((s.completing rest).recordLost r more).openGroup? st := by
      unfold State.openGroup?
      rw [faultEntered_groups]
    rw [hopen]
    exact recordLost_opens (s.completing rest) r more st
  · have hfaulted : ((s.completing rest).recordLost r more).engine.state = .faulted := hstate
    have hports := report_faulted_ports .journalWrite none hfaulted
    have hquiet := noReadyFront_of_ports (u := ((s.completing rest).recordLost r more).report .journalWrite none) hlive.2 hports
    refine ⟨_, exec_recordFailure hlive haw hpurpose hout, (out_finish_quiet hquiet).trans (by simp; rfl), ?_⟩
    exact (report_joins .journalWrite none hfaulted).becomes (becomes_finish_quiet hquiet)

end Sys2Proof.Machine
end

section
/-! A failed home write (O27). -/

namespace Sys2Proof.Machine

set_option Elab.async false

/-- A home write of the attempt has failed: it is no longer outstanding, and the attempt is stopped (R126). -/
def State.attemptStopped (s : State) (a : ApplyRecord) : State :=
  { s with apply := some { a with outstanding := a.outstanding - 1, stopped := true } }

theorem exec_applyFailure {s : State} {e : MemEntry} {rest : List MemEntry} {a : ApplyRecord} (hlive : Live s)
    (haw : Awaits s e rest) (hpurpose : e.purpose = .homeWrite) (ha : s.apply = some a) :
    exec .applyFailure s = .next (State.continueClear (if a.stopped then (s.completing rest).attemptStopped a
      else if s.engine.clear = some (.apply true) then ((s.completing rest).attemptStopped a).failClear
      else ((s.completing rest).attemptStopped a).report .applyWrite none)).finish := by
  have ha' : (s.completing rest).apply = some a := ha
  change acknowledge s Purpose.isHomeWrite true State.homeWriteFailed = _
  rw [acknowledge_next hlive.1 haw (by rw [hpurpose]; rfl) rfl, dropFront_awaits haw]
  change Host.Outcome.next (s.completing rest).homeWriteFailed.finish = _
  simp only [State.homeWriteFailed, ha']
  rfl

/-- Without a CLEAR_FAULT none goes on. -/
theorem continueClear_none {s : State} (h : s.engine.clear = none) : s.continueClear = s := by
  simp only [State.continueClear, h]

/-- An attempt that has been stopped for long changes only its count of outstanding writes. -/
theorem attemptStopped_again {s : State} {a : ApplyRecord} (hstopped : a.stopped = true) :
    s.attemptStopped a = { s with apply := some { a with outstanding := a.outstanding - 1 } } := by
  unfold State.attemptStopped
  rw [← hstopped]

/-- The first failure of an attempt outside FAULTED enters it (R126). -/
theorem applyFailure_enters {s : State} {e : MemEntry} {rest : List MemEntry} {a : ApplyRecord} (hlive : Live s)
    (haw : Awaits s e rest) (hpurpose : e.purpose = .homeWrite) (ha : s.apply = some a) (hstopped : a.stopped = false)
    (hclear : s.engine.clear = none) (hstate : s.engine.state = .online ∨ s.engine.state = .quiescing) :
    exec .applyFailure s = .next
      (((s.completing rest).attemptStopped a).faultEntered .applyWrite none (some s.engine.state)).finish := by
  obtain ⟨houtside, hback⟩ := returnStateAt_running .applyWrite none hstate
  rw [exec_applyFailure hlive haw hpurpose ha, if_neg (by simp [hstopped]), if_neg (by simp [hclear]),
    report_outside (u := (s.completing rest).attemptStopped a) _ _ houtside, continueClear_none (by exact hclear)]
  exact congrArg (fun b => Host.Outcome.next
    (((s.completing rest).attemptStopped a).faultEntered .applyWrite none b).finish) hback

/-- A later failure of the attempt, while CLEAR_FAULT waits (R127). -/
theorem applyFailure_later {s : State} {e : MemEntry} {rest : List MemEntry} {a : ApplyRecord} (hlive : Live s)
    (haw : Awaits s e rest) (hpurpose : e.purpose = .homeWrite) (ha : s.apply = some a) (hstopped : a.stopped = true)
    (hwaits : ClearWaits s 1) : exec .applyFailure s = .next ((s.completing rest).attemptStopped a).finish := by
  rw [exec_applyFailure hlive haw hpurpose ha, if_pos hstopped, continueClear_of_waits]
  have hwaits' : ClearWaits (s.completing rest) 1 := hwaits.congr rfl rfl rfl
  revert hwaits'
  unfold ClearWaits
  have hclear : ((s.completing rest).attemptStopped a).engine.clear = (s.completing rest).engine.clear := rfl
  rw [hclear]
  cases (s.completing rest).engine.clear with
  | none => exact id
  | some step =>
    cases step with
    | journal own => exact id
    | anchor => exact id
    | apply started =>
      rintro ⟨b, hb, hleft⟩
      obtain rfl : a = b := Option.some.inj (ha.symm.trans hb)
      exact ⟨_, rfl, hleft.imp_right fun hmore => Nat.sub_pos_of_lt hmore⟩

/-- The last failure that CLEAR_FAULT's apply step has waited for lets the new attempt begin (R127). -/
theorem applyFailure_last {s : State} {e : MemEntry} {rest : List MemEntry} {a : ApplyRecord} (hlive : Live s)
    (haw : Awaits s e rest) (hpurpose : e.purpose = .homeWrite) (ha : s.apply = some a) (hstopped : a.stopped = true)
    (hlast : a.outstanding = 1) (hclear : s.engine.clear = some (.apply false)) :
    exec .applyFailure s = .next (State.startAttempt (s.completing rest) { a with outstanding := 0 }).finish := by
  have hclear' : ((s.completing rest).attemptStopped a).engine.clear = some (.apply false) := hclear
  have happly : ((s.completing rest).attemptStopped a).apply = some { a with outstanding := 0, stopped := true } := by
    simp [State.attemptStopped, hlast]
  rw [exec_applyFailure hlive haw hpurpose ha, if_pos hstopped]
  simp only [State.continueClear, hclear', happly]
  rfl

/-- After a report to a FAULTED engine whose CLEAR_FAULT does not outlive it, no step goes on. -/
theorem report_faulted_clear {u : State} {c : FaultCause} (answered : Option CheckpointRequest)
    (hstate : u.engine.state = .faulted) (h : u.engine.clear = none ∨ c ∉ u.engine.causes) :
    (u.report c answered).engine.clear = none := by
  by_cases hc : c ∈ u.engine.causes
  · have hreport : u.report c answered = u := by simp [State.report, hstate, hc]
    rw [hreport]
    exact h.resolve_right fun hnew => hnew hc
  · rw [report_new answered hstate hc]
    split
    · rw [failClear_engine]
    · rename_i hclear
      exact Option.not_isSome_iff_eq_none.1 hclear

/-- Settles O27: the failures of an attempt outside FAULTED, and in it. -/
theorem applyFailureFaults : Obligations.ApplyFailureFaults := by
  unfold Obligations.ApplyFailureFaults
  refine ⟨fun s e rest a hlive haw hpurpose ha => ⟨fun hstopped hclear hstate => ?_, fun hstopped hwaits => ?_,
    fun hstopped hlast hclear => ?_⟩, fun s e rest a hlive haw hpurpose ha hstopped hstate =>
    ⟨fun hclear hother => ?_, fun hclear hrun => ?_⟩⟩
  · exact ⟨_, applyFailure_enters hlive haw hpurpose ha hstopped hclear hstate, (faultEntered_finish rfl).withOut s.out,
      fun st h p hh hp => faultEntered_answers hh hp⟩
  · have hexec := applyFailure_later hlive haw hpurpose ha hstopped hwaits
    rw [attemptStopped_again hstopped] at hexec
    have hquiet : NoReadyFront { s.completing rest with apply := some { a with outstanding := a.outstanding - 1 } } := hlive.2
    exact ⟨_, hexec, out_finish_quiet hquiet, becomes_finish_quiet hquiet⟩
  · have hquiet : NoReadyFront ((s.completing rest).startAttempt { a with outstanding := 0 }) := hlive.2
    exact ⟨_, applyFailure_last hlive haw hpurpose ha hstopped hlast hclear, out_finish_quiet hquiet,
      becomes_finish_quiet hquiet⟩
  · have hfaulted : ((s.completing rest).attemptStopped a).engine.state = .faulted := hstate
    have hexec := exec_applyFailure hlive haw hpurpose ha
    rw [if_neg (by simp [hstopped]), if_neg hother, continueClear_none (report_faulted_clear none hfaulted hclear)] at hexec
    have hquiet := noReadyFront_of_ports (u := ((s.completing rest).attemptStopped a).report .applyWrite none) hlive.2
      (report_faulted_ports .applyWrite none hfaulted)
    refine ⟨_, hexec, (out_finish_quiet hquiet).trans (by simp; rfl), ?_⟩
    exact (report_joins .applyWrite none hfaulted).becomes (becomes_finish_quiet hquiet)
  · have hexec := exec_applyFailure hlive haw hpurpose ha
    rw [if_neg (by simp [hstopped]), if_pos hclear, failClear_eq (s := (s.completing rest).attemptStopped a) hrun,
      continueClear_none rfl] at hexec
    have hquiet : NoReadyFront ((s.completing rest).attemptStopped a).clearFailed := hlive.2
    exact ⟨_, hexec, out_finish_quiet hquiet, becomes_finish_quiet hquiet⟩

end Sys2Proof.Machine
end

section
/-! A failed checkpoint and a failed rewrite (O29). -/

namespace Sys2Proof.Machine

set_option Elab.async false

/-! ### The halves of an anchor (R133) -/

theorem frontIsRewrite_awaits {s : State} {e : MemEntry} {rest : List MemEntry} {second rewrite : Bool}
    (haw : Awaits s e rest) (hpurpose : e.purpose = .anchorHalf second rewrite) : s.frontIsRewrite = rewrite := by
  simp [State.frontIsRewrite, State.frontServes, State.front, haw.1, haw.2.2, hpurpose]

/-- A first half has ended `st`: what its completion makes of `s`. -/
theorem exec_firstHalf {s : State} {e : MemEntry} {rest : List MemEntry} {rewrite : Bool} (st : MemStatus) (hlive : Live s)
    (haw : Awaits s e rest) (hpurpose : e.purpose = .anchorHalf false rewrite) :
    exec (.anchorFirstHalfCompletion st) s = .next ((s.completing rest).firstHalfDone rewrite st).finish := by
  change acknowledge s Purpose.isFirstHalf true (State.firstHalfDone · s.frontIsRewrite st) = _
  rw [acknowledge_next hlive.1 haw (by rw [hpurpose]; rfl) rfl, dropFront_awaits haw, frontIsRewrite_awaits haw hpurpose]
  rfl

/-- An anchor whose second half has come in, and one of whose halves failed: what its completion makes of `s`. -/
theorem exec_secondHalf {s : State} {e : MemEntry} {rest : List MemEntry} {rewrite : Bool} {second : MemStatus} (hlive : Live s)
    (haw : Awaits s e rest) (hpurpose : e.purpose = .anchorHalf true rewrite)
    (hfail : second = .error ∨ s.firstHalf = some .error) : exec (.checkpointFailure second) s
      = .next ((if rewrite then State.rewriteFailed else State.checkpointFailed) (s.completing rest)).finish := by
  change acknowledge s Purpose.isSecondHalf (second = .error || s.firstHalf = some .error)
    (if s.frontIsRewrite then State.rewriteFailed else State.checkpointFailed) = _
  rw [acknowledge_next hlive.1 haw (by rw [hpurpose]; rfl) (by simpa using hfail), dropFront_awaits haw,
    frontIsRewrite_awaits haw hpurpose]
  rfl

/-- An event after which no response is ready at a front. -/
theorem next_finish_quiet {c : Instr} {s u : State} (hlive : Live s) (hexec : exec c s = .next u.finish)
    (hports : u.ports = s.ports) (hout : u.out = Outputs.none) : Leads c s fun t => t.out = Outputs.none ∧ Becomes t u := by
  have hquiet := noReadyFront_of_ports hlive.2 hports
  exact ⟨_, hexec, (out_finish_quiet hquiet).trans hout, becomes_finish_quiet hquiet⟩

/-! ### A failed checkpoint -/

/-- A checkpoint has failed: its anchor is retained (R133). -/
def State.flightFailed (s : State) (f : Flight) : State :=
  { s with ckpt := { s.ckpt with
      inFlight := none, retained := some { copy := f.copy, anchor := f.anchor, answers := f.answers } } }

theorem exec_checkpointFailure {s : State} {e : MemEntry} {rest : List MemEntry} {f : Flight} {second : MemStatus}
    (hlive : Live s) (haw : Awaits s e rest) (hflight : s.ckpt.inFlight = some f) (hpurpose : e.purpose = .anchorHalf true false)
    (hfail : second = .error ∨ f.first = some .error) : exec (.checkpointFailure second) s
      = .next (((s.completing rest).flightFailed f).report .checkpointWrite f.answers).finish := by
  have hfirst : s.firstHalf = f.first := by simp [State.firstHalf, frontIsRewrite_awaits haw hpurpose, hflight]
  have hflight' : (s.completing rest).ckpt.inFlight = some f := hflight
  rw [exec_secondHalf hlive haw hpurpose (by rwa [hfirst])]
  simp only [Bool.false_eq_true, if_false, State.checkpointFailed, hflight']
  rfl

/-- An engine that serves comes back to the state in which the fault has found it; one whose checkpoint has answered a RESUME
comes back ONLINE (R163). -/
theorem returnStateAt_serving {state : EngineState} (answered : Option CheckpointRequest)
    (h : state = .online ∨ state = .quiescing ∨ state = .quiesced) : state ≠ .faulted
      ∧ returnStateAt state .checkpointWrite answered
        = some (if state = .quiesced ∧ answered = some .resume then .online else state) := by
  rcases h with rfl | rfl | rfl
  · exact ⟨by decide, by simp [returnStateAt]⟩
  · exact ⟨by decide, by simp [returnStateAt]⟩
  · refine ⟨by decide, ?_⟩
    by_cases hresume : answered = some .resume <;> simp [returnStateAt, hresume]

/-- A RESUME that the failed checkpoint was to answer has ended FAILED. -/
theorem faultEntered_resume {u : State} (c : FaultCause) (back : Option EngineState) (hrun : u.mgmt.running = some .resume) :
    (u.faultEntered c (some .resume) back).mgmt = (u.faultEntryMgmt c).ended .resume .failed := by
  have hrun' : (u.faultEntryMgmt c).running = some .resume := (faultEntryMgmt_running u c).trans hrun
  simp only [State.faultEntered, if_true, endsIf_running _ hrun']
  exact if_neg (by simp [ManagementPort.ended])

/-- Without held writes the entry into FAULTED declines none. -/
theorem faultEntered_noHolds {u : State} (c : FaultCause) {answered : Option CheckpointRequest} (back : Option EngineState)
    (hholds : ∀ st, getV u.holds st = none) (hanswered : answered ≠ some .resume) : u.faultEntered c answered back = { u with
      engine := u.engine.faultedWith c back, mgmt := (u.mgmt.push (.fault c)).restartEnds .failed } := by
  have hheld (st : Stream) : u.heldPlace st = none := by simp [State.heldPlace, hholds st]
  have hmgmt : u.faultEntryMgmt c = u.mgmt.push (.fault c) := by simp [State.faultEntryMgmt, hheld]
  have hports : mapStreams (fun st p => { p with places := u.placesFaulted st }) u.ports = u.ports :=
    tables_ext _ _ fun st => by simp [State.placesFaulted, hheld]
  have hnone : Vector.replicate 8 none = u.holds := tables_ext _ _ fun st => by rw [getV_replicate, hholds]
  simp only [State.faultEntered, hmgmt, hports, hnone, if_neg hanswered]

/-- The second half's failure in an engine that serves. -/
theorem checkpointFailure_enters {s : State} {e : MemEntry} {rest : List MemEntry} {f : Flight} {second : MemStatus}
    (hlive : Live s) (haw : Awaits s e rest) (hflight : s.ckpt.inFlight = some f) (hpurpose : e.purpose = .anchorHalf true false)
    (hfail : second = .error ∨ f.first = some .error)
    (hstate : s.engine.state = .online ∨ s.engine.state = .quiescing ∨ s.engine.state = .quiesced) :
    exec (.checkpointFailure second) s = .next (((s.completing rest).flightFailed f).faultEntered .checkpointWrite f.answers
      (some (if s.engine.state = .quiesced ∧ f.answers = some .resume then .online else s.engine.state))).finish := by
  obtain ⟨houtside, hback⟩ := returnStateAt_serving f.answers hstate
  rw [exec_checkpointFailure hlive haw hflight hpurpose hfail,
    report_outside (u := (s.completing rest).flightFailed f) _ _ houtside]
  exact congrArg (fun b => Host.Outcome.next
    (((s.completing rest).flightFailed f).faultEntered .checkpointWrite f.answers b).finish) hback

/-- The failure of recovery's closing checkpoint. -/
theorem checkpointFailure_recovering {s : State} {e : MemEntry} {rest : List MemEntry} {f : Flight} {second : MemStatus}
    (hlive : Live s) (haw : Awaits s e rest) (hflight : s.ckpt.inFlight = some f) (hpurpose : e.purpose = .anchorHalf true false)
    (hfail : second = .error ∨ f.first = some .error) (hstate : s.engine.state = .recovering)
    (hanswers : f.answers = some .recovery) (hholds : ∀ st, getV s.holds st = none) :
    Leads (.checkpointFailure second) s fun t => t.out = Outputs.none ∧ Becomes t { (s.completing rest).flightFailed f with
      engine := s.engine.faultedWith .checkpointWrite (some .online)
      mgmt := (s.mgmt.push (.fault .checkpointWrite)).restartEnds .failed } := by
  have hstate' : ((s.completing rest).flightFailed f).engine.state = .recovering := hstate
  have hexec := exec_checkpointFailure hlive haw hflight hpurpose hfail
  rw [report_outside _ _ (by rw [hstate']; decide), hstate', hanswers,
    faultEntered_noHolds (u := (s.completing rest).flightFailed f) _ _ hholds (by decide)] at hexec
  exact (next_finish_quiet hlive hexec rfl rfl :)

/-! ### A failed rewrite of the retained anchor -/

/-- The rewrite of the retained anchor is this now (R133). -/
def State.rewriteNow (s : State) (x : Option Rewrite) : State := { s with ckpt := { s.ckpt with rewrite := x } }

/-- The first half of the running CLEAR_FAULT's own rewrite. -/
theorem firstHalfDone_own {s : State} {w : Rewrite} (st : MemStatus) (hrewrite : s.ckpt.rewrite = some w) (hown : w.own = true) :
    s.firstHalfDone true st = if st = .error then (s.rewriteNow (some { w with first := some st })).failClear
      else s.rewriteNow (some { w with first := some st }) := by
  simp [State.firstHalfDone, State.rewriteNow, hrewrite, hown]

theorem rewriteFailed_eq {s : State} {w : Rewrite} (hrewrite : s.ckpt.rewrite = some w) :
    s.rewriteFailed = if w.own then (s.rewriteNow none).failClear else s.rewriteNow none := by
  simp [State.rewriteFailed, State.rewriteNow, State.ownsAnchor, hrewrite]

theorem exec_rewriteFailure {s : State} {e : MemEntry} {rest : List MemEntry} {w : Rewrite} {second : MemStatus}
    (hlive : Live s) (haw : Awaits s e rest) (hrewrite : s.ckpt.rewrite = some w) (hpurpose : e.purpose = .anchorHalf true true)
    (hfail : second = .error ∨ w.first = some .error) : exec (.checkpointFailure second) s
      = .next (if w.own then ((s.completing rest).rewriteNow none).failClear
          else (s.completing rest).rewriteNow none).finish := by
  have hfirst : s.firstHalf = w.first := by simp [State.firstHalf, frontIsRewrite_awaits haw hpurpose, hrewrite]
  rw [exec_secondHalf hlive haw hpurpose (by rwa [hfirst]), if_pos rfl,
    rewriteFailed_eq (s := s.completing rest) hrewrite]

/-- Settles O29: the halves of a checkpoint that fails, and of a rewrite of the retained anchor. -/
theorem checkpointFailureRetainsTheAnchor : Obligations.CheckpointFailureRetainsTheAnchor := by
  unfold Obligations.CheckpointFailureRetainsTheAnchor
  refine ⟨fun s e rest f hlive haw hflight => ⟨fun st hpurpose => ?_, fun second hpurpose hfail hstate => ?_,
    fun second hpurpose hfail => ⟨fun hstate => ?_, fun hstate hanswers hholds => ?_⟩⟩,
    fun s e rest w hlive haw hrewrite => ⟨fun hpurpose hown => ⟨?_, fun hrun => ?_⟩,
      fun second hpurpose hfail => ⟨fun hown hrun => ?_, fun hown => ?_⟩⟩⟩
  · have hexec := exec_firstHalf st hlive haw hpurpose
    have hflight' : (s.completing rest).ckpt.inFlight = some f := hflight
    simp only [State.firstHalfDone, hflight', Option.map_some] at hexec
    exact (next_finish_quiet hlive hexec rfl rfl :)
  · refine ⟨_, checkpointFailure_enters hlive haw hflight hpurpose hfail hstate, (faultEntered_finish rfl).withOut s.out,
      fun hresume hrun => ?_, fun st h p hh hp => faultEntered_answers hh hp⟩
    rw [finish_mgmt, hresume, faultEntered_resume (u := (s.completing rest).flightFailed f) _ _ hrun]
    simp [ManagementPort.ended]
  · have hfaulted : ((s.completing rest).flightFailed f).engine.state = .faulted := hstate
    obtain ⟨t, ht, hout, hbecomes⟩ := next_finish_quiet hlive (exec_checkpointFailure hlive haw hflight hpurpose hfail)
      (report_faulted_ports .checkpointWrite f.answers hfaulted) (by simp; rfl)
    have hjoins := (report_joins .checkpointWrite f.answers hfaulted).becomes hbecomes
    exact ⟨t, ht, hout, hjoins⟩
  · exact (checkpointFailure_recovering hlive haw hflight hpurpose hfail hstate hanswers hholds :)
  · have hexec := exec_firstHalf .ok hlive haw hpurpose
    rw [firstHalfDone_own (s := s.completing rest) _ hrewrite hown, if_neg (by decide)] at hexec
    exact (next_finish_quiet hlive hexec rfl rfl :)
  · have hexec := exec_firstHalf .error hlive haw hpurpose
    rw [firstHalfDone_own (s := s.completing rest) _ hrewrite hown, if_pos rfl, failClear_eq (by exact hrun)] at hexec
    exact (next_finish_quiet hlive hexec rfl rfl :)
  · have hexec := exec_rewriteFailure hlive haw hrewrite hpurpose hfail
    rw [if_pos hown, failClear_eq (by exact hrun)] at hexec
    exact (next_finish_quiet hlive hexec rfl rfl :)
  · have hexec := exec_rewriteFailure hlive haw hrewrite hpurpose hfail
    rw [if_neg (by simp [hown])] at hexec
    exact (next_finish_quiet hlive hexec rfl rfl :)

end Sys2Proof.Machine
end

section
/-! SUPPORT. The retraction of every request, the drain and its clearings (R48, R144, R160, R171). -/

namespace Sys2Proof.Machine

set_option Elab.async false

/-- Where no stream has a request, none is ready at a front. -/
theorem noReadyFront_of_empty {u : State} (h : ∀ st, (getV u.ports st).places = []) : NoReadyFront u := by
  intro st p hp
  simp [h st] at hp

theorem retractAll_places (s : State) (st : Stream) : (getV s.retractAll.ports st).places = [] := by
  simp [State.retractAll]

theorem retractAll_nextIndex (s : State) (st : Stream) :
    (getV s.retractAll.ports st).nextIndex = (getV s.ports st).nextIndex := by
  simp [State.retractAll]

/-- The requests leave in taken order, the streams ascending (R48, log entry 11). -/
theorem retractAll_out {s : State} (hnone : s.out = Outputs.none) : s.retractAll.out = { Outputs.none with
    responses := allStreams.flatMap fun st => (getV s.ports st).places.map fun q =>
      ⟨q.request.stream, q.request.tag, .retracted⟩ } := by
  rw [State.retractAll, hnone, Outputs.none, List.nil_append]

/-- After the retraction nothing is ready, whatever else the event does. -/
theorem noReadyFront_retracted {s u : State} (hports : u.ports = s.retractAll.ports) : NoReadyFront u :=
  noReadyFront_of_empty fun st => by rw [hports, retractAll_places]

/-! ### The drain (R144) -/

/-- What is outstanding is left to the drain. -/
theorem drainCheck_waits {s : State} (h : s.mem.outstanding ≠ []) : s.drainCheck = s := by
  simp [State.drainCheck, h]

theorem drainCheck_restart {s : State} (h : s.mem.outstanding = []) (hrun : s.mgmt.running = some .restart) :
    s.drainCheck = s.restartClearing := by
  simp [State.drainCheck, h, hrun]

theorem drainCheck_format {s : State} {w : FormatWork} (h : s.mem.outstanding = []) (hrun : s.mgmt.running = some .format)
    (hwork : s.service.format = some w) : s.drainCheck = s.formatClearing w := by
  simp [State.drainCheck, h, hrun, hwork]

/-! ### The clearings -/

/-- The clearing that leaves each block so. -/
theorem cleared_of_blocks {s t : State} {through : Word} (hgroups : t.groups = GroupTable.cleared 1)
    (hpool : t.pool = SlotPool.cleared) (hindex : t.index = []) (hholds : t.holds = Vector.replicate 8 none)
    (hjournal : t.journal = JournalWriter.cleared s.journal.format) (happly : t.apply = none)
    (hckpt : t.ckpt = { s.ckpt with durableTail := 0, retiredThrough := through, inFlight := none, pending := false,
                                    request := none, retained := none, rewrite := none })
    (hmem : t.mem = MemoryPort.idle)
    (hservice : t.service.recovery = Recovery.empty ∧ t.service.replay = none ∧ t.service.digest = none) :
    Cleared s t through := by
  refine ⟨fun st => ?_, ?_, ?_, ?_, ?_, fun id => ?_, hindex, fun st => ?_, hjournal, happly, hckpt, hmem, hservice⟩
  · simp [State.openGroup?, hgroups, GroupTable.cleared]
  · rw [hgroups]; rfl
  · rw [hgroups]; rfl
  · rw [hgroups]; rfl
  · rw [hpool, SlotPool.cleared]
  · simp [State.slot, hpool, SlotPool.cleared]
  · rw [hholds, getV_replicate]

/-- The end of the event leaves the blocks cleared. -/
theorem Cleared.becomes {s u t : State} {through : Word} (h : Cleared s u through) (ht : Becomes t u) : Cleared s t through := by
  unfold Becomes at ht
  rw [ht]
  exact h

end Sys2Proof.Machine
end

section
/-! RESTART is taken (O45). -/

namespace Sys2Proof.Machine

set_option Elab.async false

/-- The command that runs ends (R177). -/
theorem endCommand_running {s : State} {c : Command} (r : Result) (h : s.mgmt.running = some c) :
    s.endCommand r = { s with mgmt := s.mgmt.ended c r } := by
  simp only [State.endCommand, State.endCommandWith, h]
  rfl

theorem endCommand_idle {s : State} (r : Result) (h : s.mgmt.running = none) : s.endCommand r = s := by
  simp only [State.endCommand, State.endCommandWith, h]

/-- RESTART once what ran has ended and the requests are retracted: the drain begins (R159). -/
def State.restartDraining (u : State) : State :=
  { (u.takeRunning .restart).retractAll with
    engine := u.engine.restart
    service := { u.service with format := none }
    mem := { u.mem with draining := true, path := [] } }

theorem exec_restart {s : State} (hlive : Live s) : exec .restart s
    = .next (s.clearOut.abortRunningDigest.endCommand .aborted).restartDraining.drainCheck.finish :=
  happen_next (f := State.restart) hlive.1 rfl

/-- A state in which every block that RESTART empties at once is empty, the engine is RECOVERING, and either the clearing is done
or what is outstanding is left to the drain. -/
theorem restartTaken_finish {u v : State} (hnone : u.out = Outputs.none) (hout : v.out = u.retractAll.out)
    (hports : v.ports = u.retractAll.ports) (hholds : v.holds = Vector.replicate 8 none)
    (hengine : v.engine = u.engine.restart) (hmgmt : v.mgmt = u.mgmt.runs .restart)
    (hservice : v.service.format = none ∧ v.service.digest = none) (hprofile : v.profile = u.profile) (hpath : v.mem.path = [])
    (hcleared : u.mem.outstanding = [] → Cleared u v u.ckpt.retiredThrough)
    (hwaits : u.mem.outstanding ≠ [] → Becomes v u.restartDraining) : RestartTaken u v.finish := by
  have hquiet : NoReadyFront v := noReadyFront_retracted hports
  have hbecomes : Becomes v.finish v := becomes_finish_quiet hquiet
  have hfinish : v.finish.ports = u.retractAll.ports := (finish_quiet hquiet).1.trans hports
  refine ⟨?_, fun st => ?_, fun st => ?_, ?_, ?_, ?_, ?_, ?_, ?_,
    fun hempty => (hcleared hempty).becomes hbecomes, fun hmore => ?_⟩
  · rw [out_finish_quiet hquiet, hout, retractAll_out hnone]
  · rw [hfinish]
    exact ⟨retractAll_places u st, retractAll_nextIndex u st⟩
  · simp [hholds]
  · simp [hengine, EngineControl.restart]
  · simp [hmgmt]
  · simp [hservice]
  · simp [hservice]
  · simp [hprofile]
  · simp [hpath]
  · rw [hfinish]
    exact hbecomes.trans (hwaits hmore)

/-- RESTART is taken in a state in which what ran has ended. -/
theorem restartTaken_drainCheck {u : State} (hnone : u.out = Outputs.none) (hdigest : u.service.digest = none) :
    RestartTaken u u.restartDraining.drainCheck.finish := by
  by_cases hempty : u.mem.outstanding = []
  · rw [drainCheck_restart (s := u.restartDraining) hempty rfl]
    exact restartTaken_finish hnone rfl rfl rfl rfl rfl ⟨rfl, rfl⟩ rfl rfl
      (fun _ => cleared_of_blocks rfl rfl rfl rfl rfl rfl rfl rfl ⟨rfl, rfl, rfl⟩) fun hmore => absurd hempty hmore
  · rw [drainCheck_waits (s := u.restartDraining) hempty]
    exact restartTaken_finish hnone rfl rfl rfl rfl rfl ⟨rfl, hdigest⟩ rfl rfl (fun h => absurd h hempty)
      fun _ => Becomes.refl _

/-- A running DIGEST has been ended by RESTART, which then finds the slot IDLE (R159, R174). -/
theorem abortRunningDigest_running {s : State} {d : DigestRecord} (hdigest : s.service.digest = some d)
    (hrun : s.mgmt.running = some .digest) : s.abortRunningDigest.endCommand .aborted = { s with
      service := { s.service with digest := none }
      mem := { s.mem with outstanding := ignoring Purpose.isDigestRead s.mem.outstanding }
      mgmt := ({ s.mgmt with digestResult := ~~~ d.crc, coveredBytes := d.processed }).ended .digest .aborted } := by
  have hrun' : (s.closeDigest d).mgmt.running = some .digest := hrun
  have hended : s.abortRunningDigest = { s.closeDigest d with mgmt := (s.closeDigest d).mgmt.ended .digest .aborted } := by
    simp only [State.abortRunningDigest, hdigest, endIf_eq, endsIf_running _ hrun']
  have hidle : s.abortRunningDigest.mgmt.running = none := by simp [hended, ManagementPort.ended]
  rw [endCommand_idle _ hidle, hended]
  rfl

/-- Settles O45: RESTART, with and without a DIGEST that runs. -/
theorem restartRetractsAndDrains : Obligations.RestartRetractsAndDrains := by
  unfold Obligations.RestartRetractsAndDrains
  refine ⟨fun s hlive hdigest => ?_, fun s d hlive hdigest hrun => ?_⟩
  · have hnone : s.clearOut.abortRunningDigest = s.clearOut := by
      have hdigest' : s.clearOut.service.digest = none := hdigest
      simp only [State.abortRunningDigest, hdigest']
    have hexec := exec_restart hlive
    rw [hnone] at hexec
    cases hrun : s.mgmt.running with
    | none =>
      rw [endCommand_idle (s := s.clearOut) _ hrun] at hexec
      exact ⟨_, hexec, restartTaken_drainCheck rfl hdigest⟩
    | some c =>
      rw [endCommand_running (s := s.clearOut) _ hrun] at hexec
      exact ⟨_, hexec, restartTaken_drainCheck rfl hdigest⟩
  · have hexec := exec_restart hlive
    rw [abortRunningDigest_running (s := s.clearOut) hdigest hrun] at hexec
    exact ⟨_, hexec, restartTaken_drainCheck rfl rfl⟩

end Sys2Proof.Machine
end

section
/-! FORMAT checks and begins (O46). -/

namespace Sys2Proof.Machine

set_option Elab.async false

theorem exec_format {s : State} (hlive : Live s) (hidle : s.mgmt.running = none) :
    exec .format s = .next s.clearOut.format.finish := by
  have hoffer : s.clearOut.offer State.format = s.clearOut.format := if_neg (by simp [State.clearOut, hidle])
  change happen s true (fun t => t.offer State.format) = _
  rw [happen_next hlive.1 rfl, hoffer]

/-! ### The arguments (R171) -/

/-- The work of a FORMAT with the arguments in ARG0 and ARG1, before its checks. -/
def State.formatAsked (s : State) : FormatWork :=
  { code := (getV s.mgmt.args 0).setWidth 8, stamp := getV s.mgmt.args 1, checked := false, granted := 0, acked := 0 }

/-- The states in which FORMAT is taken (R171). -/
def EngineState.formattable (x : EngineState) : Prop := x = .unformatted ∨ x = .quiesced ∨ x = .faulted

theorem format_wrongState {s : State} (h : ¬ s.engine.state.formattable) : s.format = s.answerAtOnce 6 .wrongState := by
  have hno : (!(s.engine.state = .unformatted || s.engine.state = .quiesced || s.engine.state = .faulted)) = true := by
    simpa [EngineState.formattable, and_assoc] using h
  exact if_pos hno

theorem format_taken {s : State} (h : s.engine.state.formattable) : s.format = if 8 < (getV s.mgmt.args 0).toNat
    then s.answerAtOnce 6 .badArgument else s.formatAccepted s.formatAsked := by
  have hyes : ¬ (!(s.engine.state = .unformatted || s.engine.state = .quiesced || s.engine.state = .faulted)) = true := by
    rcases h with h | h | h <;> simp [h]
  exact if_neg hyes

theorem format_accepted {s : State} (h : s.engine.state.formattable) (hcode : (getV s.mgmt.args 0).toNat ≤ 8) :
    s.format = s.formatAccepted s.formatAsked := (format_taken h).trans (if_neg (Nat.not_lt.2 hcode))

/-- The ring size of the anchor's byte is that of the argument. -/
theorem setWidth_toNat {code : Word} (h : code.toNat ≤ 8) : (code.setWidth 8).toNat = code.toNat := by
  rw [BitVec.toNat_setWidth, Nat.mod_eq_of_lt (by omega)]

/-! ### The checks (R169, R171) -/

/-- The stamp asked for is zero or that of the current format (R171). -/
def State.stampReused (s : State) (stamp : Word) : Prop := stamp = 0 ∨ ∃ f, s.journal.format = some f ∧ f.stamp = stamp

theorem stampReused_iff (s : State) (stamp : Word) :
    (stamp = 0 || s.journal.format.any (·.stamp = stamp)) = true ↔ s.stampReused stamp := by
  simp [State.stampReused, Option.any_eq_true]

theorem not_stampReused {s : State} {stamp : Word} (hzero : stamp ≠ 0)
    (hother : ∀ f, s.journal.format = some f → f.stamp ≠ stamp) : ¬ s.stampReused stamp
  | .inl h => hzero h
  | .inr ⟨f, hf, h⟩ => hother f hf h

theorem formatFault_reused {s : State} {w : FormatWork} (h : s.stampReused w.stamp) :
    s.formatFault w = some (.stampReused, 0, 0) := if_pos ((stampReused_iff s w.stamp).2 h)

theorem formatFault_fresh {s : State} {w : FormatWork} (h : ¬ s.stampReused w.stamp) : s.formatFault w
      = (profileFault s.engine.staging (journalBase s.abase) (1024 * 2 ^ w.code.toNat)).map fun f => (.profileInvalid, f.1, f.2) :=
  if_neg fun hreused => h ((stampReused_iff s w.stamp).1 hreused)

/-! ### FORMAT outside FAULTED -/

/-- A check that fails answers FORMAT at once. -/
theorem formatAccepted_fails {s : State} {w : FormatWork} {r : Result} {item : Byte} {test : BitVec 4}
    (h : s.engine.state ≠ .faulted) (hfault : s.withNoRecovery.formatFault w = some (r, item, test)) :
    s.formatAccepted w = s.withNoRecovery.answerAtOnce 6 r item test := by
  simp only [State.formatAccepted, if_neg h, hfault]
  rfl

theorem formatAccepted_begins {s : State} {w : FormatWork} (h : s.engine.state ≠ .faulted)
    (hfault : s.withNoRecovery.formatFault w = none) :
    s.formatAccepted w = (s.withNoRecovery.takeRunning .format).beginFormat w := by
  simp only [State.formatAccepted, if_neg h, hfault]

/-- The states outside FAULTED in which FORMAT is taken. -/
theorem formattable_outside {x : EngineState} (h : x = .unformatted ∨ x = .quiesced) : x.formattable ∧ x ≠ .faulted := by
  rcases h with rfl | rfl
  · exact ⟨.inl rfl, by decide⟩
  · exact ⟨.inr (.inl rfl), by decide⟩

/-- FORMAT ends at once in UNFORMATTED or QUIESCED because a check fails. -/
theorem format_fails {s : State} {r : Result} {item : Byte} {test : BitVec 4} (hlive : Live s) (hidle : s.mgmt.running = none)
    (h : s.engine.state = .unformatted ∨ s.engine.state = .quiesced) (hcode : (getV s.mgmt.args 0).toNat ≤ 8)
    (hfault : s.formatFault s.formatAsked = some (r, item, test)) :
    Leads .format s fun t => t.out = Outputs.none ∧ Becomes t { s with
      mgmt := s.mgmt.answered 6 r item test, service := { s.service with recovery := Recovery.empty } } := by
  obtain ⟨htaken, houtside⟩ := formattable_outside h
  have hexec := exec_format hlive hidle
  rw [format_accepted (s := s.clearOut) htaken hcode, formatAccepted_fails (s := s.clearOut) (w := s.clearOut.formatAsked) houtside hfault] at hexec
  exact (next_finish_quiet hlive hexec rfl rfl :)

/-- FORMAT's checks pass in UNFORMATTED or QUIESCED. -/
theorem format_begins {s : State} (hlive : Live s) (hidle : s.mgmt.running = none)
    (h : s.engine.state = .unformatted ∨ s.engine.state = .quiesced) (hcode : (getV s.mgmt.args 0).toNat ≤ 8)
    (hfault : s.formatFault s.formatAsked = none) :
    Leads .format s fun t => t.out = Outputs.none ∧ Becomes t { s with
      mgmt := s.mgmt.runs .format
      engine := { s.engine with activation := some s.engine.staging }
      service := { s.service with recovery := Recovery.empty, format := some { s.formatAsked with checked := true } } } := by
  obtain ⟨htaken, houtside⟩ := formattable_outside h
  have hexec := exec_format hlive hidle
  rw [format_accepted (s := s.clearOut) htaken hcode, formatAccepted_begins (s := s.clearOut) (w := s.clearOut.formatAsked) houtside hfault] at hexec
  exact (next_finish_quiet hlive hexec rfl rfl :)

/-! ### FORMAT in FAULTED -/

/-- FORMAT in FAULTED once the requests are retracted: the drain begins (R171). -/
def State.formatDraining (s : State) : State :=
  { (s.takeRunning .format).retractAll with
    service := { s.service with format := some s.formatAsked }
    mem := { s.mem with draining := true, path := [] } }

theorem formatAccepted_faulted {s : State} (h : s.engine.state = .faulted) :
    s.formatAccepted s.formatAsked = s.formatDraining.drainCheck := if_pos h

theorem exec_format_faulted {s : State} (hlive : Live s) (hidle : s.mgmt.running = none) (hstate : s.engine.state = .faulted)
    (hcode : (getV s.mgmt.args 0).toNat ≤ 8) : exec .format s = .next s.clearOut.formatDraining.drainCheck.finish := by
  rw [exec_format hlive hidle, format_accepted (s := s.clearOut) (.inr (.inr hstate)) hcode,
    formatAccepted_faulted (s := s.clearOut) hstate]

/-- The event of FORMAT in FAULTED, whatever it makes of the blocks: the requests leave RETRACTED and no place is left. -/
theorem retracted_finish {s v : State} (hports : v.ports = s.clearOut.retractAll.ports) (hout : v.out = s.clearOut.retractAll.out) :
    v.finish.out = { Outputs.none with responses := allStreams.flatMap fun st => (getV s.ports st).places.map fun q =>
        ⟨q.request.stream, q.request.tag, .retracted⟩ }
      ∧ (∀ st, (getV v.finish.ports st).places = []) ∧ Becomes v.finish v := by
  have hquiet : NoReadyFront v := noReadyFront_retracted hports
  refine ⟨?_, fun st => ?_, becomes_finish_quiet hquiet⟩
  · rw [out_finish_quiet hquiet, hout, retractAll_out (s := s.clearOut) rfl]
    rfl
  · rw [(finish_quiet hquiet).1, hports, retractAll_places]

/-- The state in which the clearing of FORMAT from FAULTED has been made and its checks have not (R135, R171). -/
def State.formatCleared (s : State) : State :=
  { s.clearBlocks with engine := { s.engine with causes := [] }, ckpt := { s.clearBlocks.ckpt with retiredThrough := 0 } }

theorem formatClearing_eq (s : State) (w : FormatWork) : s.formatClearing w
      = (s.formatCleared.formatFault w).elim (s.formatCleared.beginFormat w) fun x =>
          State.endCommandWith { s.formatCleared with service := { s.formatCleared.service with format := none } }
            x.1 x.2.1 x.2.2 := by
  unfold State.formatClearing
  dsimp only
  split
  · rename_i r item test hfault
    have hfault' : s.formatCleared.formatFault w = some (r, item, test) := hfault
    rw [hfault']
    rfl
  · rename_i hfault
    have hfault' : s.formatCleared.formatFault w = none := hfault
    rw [hfault']
    rfl

/-- A check that fails ends FORMAT. -/
theorem formatClearing_fails {s : State} {w : FormatWork} {r : Result} {item : Byte} {test : BitVec 4}
    (hrun : s.mgmt.running = some .format) (hfault : s.formatCleared.formatFault w = some (r, item, test)) :
    s.formatClearing w = { s.formatCleared with
      service := { s.formatCleared.service with format := none }, mgmt := s.mgmt.ended .format r item test } := by
  have hrun' : s.formatCleared.mgmt.running = some .format := hrun
  rw [formatClearing_eq, hfault]
  simp only [Option.elim_some, State.endCommandWith, hrun']
  rfl

theorem formatClearing_begins {s : State} {w : FormatWork} (hfault : s.formatCleared.formatFault w = none) :
    s.formatClearing w = s.formatCleared.beginFormat w := by
  rw [formatClearing_eq, hfault, Option.elim_none]

/-- The clearing leaves every block empty, whatever the checks find. -/
theorem cleared_formatClearing {s : State} (w : FormatWork) (hrun : s.mgmt.running = some .format) :
    Cleared s (s.formatClearing w) 0 := by
  cases hfault : s.formatCleared.formatFault w with
  | none =>
    rw [formatClearing_begins hfault]
    exact cleared_of_blocks rfl rfl rfl rfl rfl rfl rfl rfl ⟨rfl, rfl, rfl⟩
  | some x =>
    rw [formatClearing_fails (r := x.1) (item := x.2.1) (test := x.2.2) hrun hfault]
    exact cleared_of_blocks rfl rfl rfl rfl rfl rfl rfl rfl ⟨rfl, rfl, rfl⟩

/-- The checks follow the clearing (R171). -/
theorem formatChecked_formatClearing {s : State} (w : FormatWork) (hrun : s.mgmt.running = some .format) :
    FormatChecked s (s.formatClearing w) w s.mgmt := by
  refine ⟨fun hreused => ?_, fun item test hfresh hfault => ?_, fun hfresh hfault => ?_⟩
  · rw [formatClearing_fails hrun (formatFault_reused (s := s.formatCleared) hreused)]
    exact ⟨rfl, rfl, rfl⟩
  · have hfault' := (formatFault_fresh (s := s.formatCleared) hfresh).trans (congrArg _ hfault)
    rw [formatClearing_fails hrun hfault']
    exact ⟨rfl, rfl, rfl⟩
  · have hfault' := (formatFault_fresh (s := s.formatCleared) hfresh).trans (congrArg _ hfault)
    rw [formatClearing_begins hfault']
    exact ⟨rfl, rfl, rfl⟩

/-- The end of the event leaves what the checks have found. -/
theorem FormatChecked.becomes {s u t : State} {w : FormatWork} {m : ManagementPort} (h : FormatChecked s u w m)
    (ht : Becomes t u) : FormatChecked s t w m := by
  unfold Becomes at ht
  rw [ht]
  exact h

/-- Settles O46: FORMAT refused, checked at once, and taken in FAULTED. -/
theorem formatChecksAndBegins : Obligations.FormatChecksAndBegins := by
  unfold Obligations.FormatChecksAndBegins
  intro s hlive hidle
  refine ⟨fun hstate => ?_, fun hstate hcode => ?_, fun hstate hcode => ⟨fun hreused => ?_, fun hzero hother =>
    ⟨fun item test hfault => ?_, fun hfault => ?_⟩⟩, fun hstate hcode hmore => ?_, fun hstate hcode hempty => ?_⟩
  · have hrefused : ¬ s.engine.state.formattable := by
      rcases hstate with h | h | h <;> simp [EngineState.formattable, h]
    refine ⟨_, exec_format hlive hidle, answerAtOnce_quiet 6 .wrongState hlive ?_⟩
    rw [format_wrongState (s := s.clearOut) hrefused]
  · refine ⟨_, exec_format hlive hidle, answerAtOnce_quiet 6 .badArgument hlive ?_⟩
    rw [(format_taken (s := s.clearOut) hstate).trans (if_pos hcode)]
  · exact format_fails hlive hidle hstate hcode (formatFault_reused hreused)
  · rw [← setWidth_toNat hcode] at hfault
    exact format_fails hlive hidle hstate hcode
      ((formatFault_fresh (w := s.formatAsked) (not_stampReused hzero hother)).trans (congrArg _ hfault))
  · rw [← setWidth_toNat hcode] at hfault
    exact format_begins hlive hidle hstate hcode
      ((formatFault_fresh (w := s.formatAsked) (not_stampReused hzero hother)).trans (congrArg _ hfault))
  · have hexec := exec_format_faulted hlive hidle hstate hcode
    rw [drainCheck_waits (s := s.clearOut.formatDraining) hmore] at hexec
    obtain ⟨hout, hplaces, hbecomes⟩ := retracted_finish (s := s) (v := s.clearOut.formatDraining) rfl rfl
    refine ⟨_, hexec, hout, hplaces, ?_⟩
    unfold Becomes at hbecomes
    rw [hbecomes]
    exact ⟨rfl, rfl, rfl, rfl, rfl, rfl, rfl, rfl, rfl⟩
  · have hexec := exec_format_faulted hlive hidle hstate hcode
    rw [drainCheck_format (s := s.clearOut.formatDraining) hempty rfl rfl] at hexec
    obtain ⟨hout, hplaces, hbecomes⟩ := retracted_finish (s := s) (v := s.clearOut.formatDraining.formatClearing s.formatAsked)
      (by simp; rfl) (by simp; rfl)
    refine ⟨_, hexec, hout, hplaces, ?_, ?_, ?_⟩
    · exact (cleared_formatClearing (s := s.clearOut.formatDraining) s.formatAsked rfl).becomes hbecomes
    · simp
      rfl
    · exact (formatChecked_formatClearing (s := s.clearOut.formatDraining) s.formatAsked rfl).becomes hbecomes

end Sys2Proof.Machine
end

section
/-! The two cases of a step (O1). -/

namespace Sys2Proof.Machine

set_option Elab.async false

theorem step_of_pending_cons {s : State} {c : Instr} {rest : List Instr} (hfront : s.pending = c :: rest) :
    step s = exec c { s with pending := rest } := by
  unfold step
  rw [hfront]

theorem step_of_pending_nil {s : State} (hempty : s.pending = []) : step s = .next { s with now := s.now + 1 } := by
  unfold step
  rw [hempty]

/-- Settles O1: with a command at the front the step is its meaning on the rest of the queue; on an empty queue time passes. -/
theorem stepRunsFrontCommand : Obligations.StepRunsFrontCommand := by
  unfold Obligations.StepRunsFrontCommand
  refine ⟨fun c rest s => ?_, fun s hempty => step_of_pending_nil hempty⟩
  exact step_of_pending_cons (s := { s with pending := c :: rest }) rfl

end Sys2Proof.Machine
end

section
/-! SUPPORT. The fields of a byte layout, read back from where they were written (00_scope, Byte order; R185, R186). -/

namespace Sys2Proof.Machine

set_option Elab.async false

/-! ### One field -/

@[simp] theorem length_leBytes (n v : Nat) : (leBytes n v).length = n := by simp [leBytes]

@[simp] theorem length_zeros (n : Nat) : (zeros n).length = n := by simp [zeros]

/-- The lowest byte comes first. -/
theorem leBytes_succ (n v : Nat) : leBytes (n + 1) v = BitVec.ofNat 8 v :: leBytes n (v / 256) := by
  have hshift (i : Nat) : v >>> (8 * (i + 1)) = (v / 256) >>> (8 * i) := by
    rw [Nat.mul_add, Nat.add_comm, Nat.shiftRight_add, Nat.shiftRight_eq_div_pow v]
  simp [leBytes, List.range_succ_eq_map, Function.comp_def, hshift]

theorem leNat_leBytes (n v : Nat) : leNat (leBytes n v) = v % 256 ^ n := by
  induction n generalizing v with
  | zero => simp [leBytes, leNat, Nat.mod_one]
  | succ n ih =>
    have hcons : leNat (leBytes (n + 1) v) = (BitVec.ofNat 8 v).toNat + 256 * leNat (leBytes n (v / 256)) := by
      rw [leBytes_succ]; rfl
    rw [hcons, ih, Nat.pow_succ', Nat.mod_mul, BitVec.toNat_ofNat]

/-- A word comes back from its four bytes. -/
theorem leNat_word (x : Word) : leNat (leBytes 4 x.toNat) = x.toNat := by
  rw [leNat_leBytes]
  exact Nat.mod_eq_of_lt x.isLt

theorem field_leBytes (n v : Nat) : field (leBytes n v) 0 n = v % 256 ^ n := by
  rw [field, List.drop_zero, List.take_of_length_le (length_leBytes n v).le, leNat_leBytes]

theorem field_word (x : Word) : field (leBytes 4 x.toNat) 0 4 = x.toNat := leNat_word x

/-! ### A field among others -/

theorem field_append_left {a b : List Byte} {o n : Nat} (h : o + n ≤ a.length) : field (a ++ b) o n = field a o n := by
  rw [field, field, List.drop_append_of_le_length (by omega), List.take_append_of_le_length (by rw [List.length_drop]; omega)]

theorem field_append_right {a b : List Byte} {o n : Nat} (h : a.length ≤ o) : field (a ++ b) o n = field b (o - a.length) n := by
  rw [field, field, List.drop_append, List.drop_eq_nil_of_le h, List.nil_append]

theorem field_front (n v : Nat) (b : List Byte) : field (leBytes n v ++ b) 0 n = v % 256 ^ n := by
  rw [field_append_left (by simp), field_leBytes]

theorem field_front_word (x : Word) (b : List Byte) : field (leBytes 4 x.toNat ++ b) 0 4 = x.toNat := by
  rw [field_append_left (by simp), field_word]

/-! ### Cells as a mask and data (R185) -/

/-- Bit `i` of the mask number says whether cell `i` is present. -/
theorem testBit_mask (cells : List (Option Byte)) (i : Nat) :
    (cells.foldr (fun (c : Option Byte) acc => (if c.isSome then 1 else 0) + 2 * acc) 0).testBit i = (cells[i]?.join).isSome := by
  induction cells generalizing i with
  | nil => simp
  | cons c cells ih =>
    rw [List.foldr_cons]
    cases i with
    | zero => cases c <;> simp [Nat.testBit_zero, Nat.add_mod]
    | succ i =>
      have hhalf (m : Nat) : ((if c.isSome then 1 else 0) + 2 * m) / 2 = m := by split <;> omega
      rw [Nat.testBit_succ, hhalf, ih, List.getElem?_cons_succ]

/-- The 32 cells of a slot come back from their mask and data. -/
theorem cellsOf_maskOf {cells : List (Option Byte)} (h : cells.length = 32) : cellsOf (maskOf cells) (dataOf cells) = cells := by
  refine List.ext_getElem (by simp [cellsOf, h]) fun i _ hi => ?_
  have hbit : (maskOf cells).getLsbD i = cells[i].isSome := by
    rw [maskOf, BitVec.getLsbD_ofNat, testBit_mask, List.getElem?_eq_getElem hi]
    simp [← h, hi]
  have hdata : (dataOf cells).getD i 0 = cells[i].getD 0 := by
    rw [List.getD_eq_getElem _ _ (by simpa [dataOf] using hi)]
    simp [dataOf]
  simp only [cellsOf, List.getElem_map, List.getElem_range, hbit, hdata]
  cases cells[i] <;> rfl

end Sys2Proof.Machine
end

section
/-! The CRC's parameters (O53) and the records of the Journal Writer read back (O54). -/

namespace Sys2Proof.Machine

set_option Elab.async false

/-! ### The CRC (R103) -/

/-- Settles O53: the check value, and the CRC bit by bit and byte by byte. -/
theorem crcParameters : Obligations.CrcParameters := by
  unfold Obligations.CrcParameters
  have hcheck : crc32 [0x31, 0x32, 0x33, 0x34, 0x35, 0x36, 0x37, 0x38, 0x39] = 0xCBF43926#32 := by decide +kernel
  have hreflected : (0x04C11DB7#32).reverse = 0xEDB88320#32 := by decide +kernel
  refine ⟨hcheck, rfl, fun c a b => List.foldl_append, fun _ => rfl, fun _ _ => rfl, fun _ => rfl, fun c => ?_⟩
  rw [hreflected, crcBit]

/-! ### The layout of a record (R185) -/

/-- The 64 bytes of a record with these header fields and these bytes 12 to 59. -/
def formedRecord (kind stream : Nat) (stamp seq : Word) (content : List Byte) : List Byte :=
  sealRecord (recordHeader kind stream stamp seq ++ content)

@[simp] theorem length_recordHeader (kind stream : Nat) (stamp seq : Word) : (recordHeader kind stream stamp seq).length = 12 := by
  simp [recordHeader]

/-- Bytes 12 to 59 of an ENTRY record. -/
def entryContent (g : Group) (line : Line) (cells : List (Option Byte)) : List Byte :=
  leBytes 4 g.number.toNat ++ (leBytes 4 line.toNat ++ (leBytes 4 (maskOf cells).toNat ++ (dataOf cells ++ zeros 4)))

/-- Bytes 12 to 59 of a COMMIT record. -/
def commitContent (g : Group) (number : Word) : List Byte :=
  leBytes 4 g.number.toNat ++ (leBytes 4 number.toNat ++ (leBytes 4 g.recordCount.toNat ++ (leBytes 4 g.entries.length ++ zeros 32)))

theorem entryRecord_formed (stamp seq : Word) (g : Group) (line : Line) (cells : List (Option Byte)) :
    entryRecord stamp seq g line cells = formedRecord 1 g.stream.val stamp seq (entryContent g line cells) := by
  simp only [entryRecord, formedRecord, entryContent, List.append_assoc]

theorem commitRecord_formed (stamp seq : Word) (g : Group) (number : Word) :
    commitRecord stamp seq g number = formedRecord 2 g.stream.val stamp seq (commitContent g number) := by
  simp only [commitRecord, formedRecord, commitContent, List.append_assoc]

theorem length_entryContent (g : Group) (line : Line) {cells : List (Option Byte)} (h : cells.length = 32) :
    (entryContent g line cells).length = 48 := by simp [entryContent, dataOf, h]

theorem length_commitContent (g : Group) (number : Word) : (commitContent g number).length = 48 := by simp [commitContent]

section
variable {kind stream : Nat} {stamp seq : Word} {content : List Byte}

theorem length_formed (h : content.length = 48) : (formedRecord kind stream stamp seq content).length = 64 := by
  simp [formedRecord, sealRecord, h]

/-- A field of the content stands 12 bytes further on in the record. -/
theorem field_formed (h : content.length = 48) {o n : Nat} (hfits : o + n ≤ 48) :
    field (formedRecord kind stream stamp seq content) (12 + o) n = field content o n := by
  rw [formedRecord, sealRecord, List.append_assoc, field_append_right (by simp), length_recordHeader, Nat.add_sub_cancel_left,
    field_append_left (by rw [h]; exact hfits)]

/-- A field of the header stands in front. -/
theorem field_header {o n : Nat} (hfits : o + n ≤ 12) :
    field (formedRecord kind stream stamp seq content) o n = field (recordHeader kind stream stamp seq) o n := by
  rw [formedRecord, sealRecord, List.append_assoc, field_append_left (by simpa using hfits)]

theorem header_kind : field (formedRecord kind stream stamp seq content) 0 1 = kind % 256 := by
  rw [field_header (by omega), recordHeader]
  simp only [List.append_assoc, field_front, pow_one]

theorem header_stream : (formedRecord kind stream stamp seq content).getD 1 0 = BitVec.ofNat 8 stream := by
  simp [formedRecord, sealRecord, recordHeader, leBytes]

theorem header_stamp : field (formedRecord kind stream stamp seq content) 4 4 = stamp.toNat := by
  rw [field_header (by omega), recordHeader]
  simp [List.append_assoc, field_append_right, field_front_word]

theorem header_seq : field (formedRecord kind stream stamp seq content) 8 4 = seq.toNat := by
  rw [field_header (by omega), recordHeader]
  simp [List.append_assoc, field_append_right, field_word]

/-- The CRC of a formed record is that of its first 60 bytes (R103). -/
theorem crc_formed (h : content.length = 48) : leNat (((formedRecord kind stream stamp seq content).drop 60).take 4)
    = (crc32 ((formedRecord kind stream stamp seq content).take 60)).toNat := by
  have hbody : (recordHeader kind stream stamp seq ++ content).length = 60 := by simp [h]
  rw [formedRecord, sealRecord, List.drop_left' hbody, List.take_left' hbody, List.take_of_length_le (by simp), leNat_word]

/-! ### Reading a record (R104, R152) -/

/-- The record that the fields of 64 bytes spell, by their kind. -/
def spelledRecord (bytes : List Byte) : Option Record :=
  let w (o : Nat) : Word := BitVec.ofNat 32 (field bytes o 4)
  match field bytes 0 1 with
  | 1 => some (.entry (bytes.getD 1 0) (w 12) (BitVec.ofNat 31 (field bytes 16 4)) (cellsOf (w 20) ((bytes.drop 24).take 32)))
  | 2 => some (.commit (bytes.getD 1 0) (w 12) (w 16) (w 20) (w 24))
  | 3 => some .filler
  | _ => none

theorem readRecord_eq (stamp seq : Word) (bytes : List Byte) : readRecord stamp seq bytes
    = if leNat ((bytes.drop 60).take 4) = (crc32 (bytes.take 60)).toNat && field bytes 4 4 = stamp.toNat
        && field bytes 8 4 = seq.toNat then spelledRecord bytes else none := rfl

/-- A formed record is valid under its own stamp and sequence number and under no other (R152). -/
theorem readRecord_formed (h : content.length = 48) (stamp' seq' : Word) :
    readRecord stamp' seq' (formedRecord kind stream stamp seq content)
      = if stamp = stamp' ∧ seq = seq' then spelledRecord (formedRecord kind stream stamp seq content) else none := by
  simp only [readRecord_eq, crc_formed h, header_stamp, header_seq, BitVec.toNat_inj, decide_true, Bool.true_and,
    Bool.and_eq_true, decide_eq_true_eq]

theorem spelled_entry {g : Group} {line : Line} {cells : List (Option Byte)} (h : cells.length = 32) :
    spelledRecord (formedRecord 1 stream stamp seq (entryContent g line cells))
      = some (.entry (BitVec.ofNat 8 stream) g.number line cells) := by
  have hcontent := length_entryContent g line h
  have hnumber : field (formedRecord 1 stream stamp seq (entryContent g line cells)) 12 4 = g.number.toNat := by
    rw [field_formed (o := 0) hcontent (by omega), entryContent, field_front_word]
  have hline : field (formedRecord 1 stream stamp seq (entryContent g line cells)) 16 4 = line.toNat := by
    rw [field_formed (o := 4) hcontent (by omega), entryContent, field_append_right (by simp), length_leBytes, Nat.sub_self,
      field_front]
    exact Nat.mod_eq_of_lt (line.isLt.trans (by norm_num))
  have hmask : field (formedRecord 1 stream stamp seq (entryContent g line cells)) 20 4 = (maskOf cells).toNat := by
    rw [field_formed (o := 8) hcontent (by omega)]
    simp [entryContent, field_append_right, field_front_word]
  have hdata : ((formedRecord 1 stream stamp seq (entryContent g line cells)).drop 24).take 32 = dataOf cells := by
    simp [formedRecord, sealRecord, entryContent, List.drop_append, List.drop_eq_nil_of_le, dataOf, h]
  simp only [spelledRecord, header_kind, header_stream, hnumber, hline, hmask, hdata, BitVec.ofNat_toNat, BitVec.setWidth_eq,
    cellsOf_maskOf h]

theorem spelled_commit {g : Group} {number : Word} : spelledRecord (formedRecord 2 stream stamp seq (commitContent g number))
    = some (.commit (BitVec.ofNat 8 stream) g.number number g.recordCount (BitVec.ofNat 32 g.entries.length)) := by
  have hcontent := length_commitContent g number
  have hgroup : field (formedRecord 2 stream stamp seq (commitContent g number)) 12 4 = g.number.toNat := by
    rw [field_formed (o := 0) hcontent (by omega), commitContent, field_front_word]
  have hnumber : field (formedRecord 2 stream stamp seq (commitContent g number)) 16 4 = number.toNat := by
    rw [field_formed (o := 4) hcontent (by omega)]
    simp [commitContent, field_append_right, field_front_word]
  have hrecords : field (formedRecord 2 stream stamp seq (commitContent g number)) 20 4 = g.recordCount.toNat := by
    rw [field_formed (o := 8) hcontent (by omega)]
    simp [commitContent, field_append_right, field_front_word]
  have hslots : field (formedRecord 2 stream stamp seq (commitContent g number)) 24 4 = g.entries.length % 2 ^ 32 := by
    rw [field_formed (o := 12) hcontent (by omega)]
    simp [commitContent, field_append_right, field_front]
  have hwraps : BitVec.ofNat 32 (g.entries.length % 2 ^ 32) = BitVec.ofNat 32 g.entries.length :=
    BitVec.eq_of_toNat_eq (by simp)
  simp only [spelledRecord, header_kind, header_stream, hgroup, hnumber, hrecords, hslots, hwraps, BitVec.ofNat_toNat,
    BitVec.setWidth_eq]

theorem spelled_filler : spelledRecord (formedRecord 3 stream stamp seq content) = some .filler := by
  simp only [spelledRecord, header_kind]

end

/-- Settles O54: each kind of record is read back under its own stamp and sequence number alone. -/
theorem recordsReadBack : Obligations.RecordsReadBack := by
  unfold Obligations.RecordsReadBack
  intro stamp seq g line cells n hcells
  have hentry := length_entryContent g line hcells
  have hcommit := length_commitContent g n
  have hfiller : (zeros 48).length = 48 := length_zeros 48
  have hforms : fillerRecord stamp seq = formedRecord 3 0 stamp seq (zeros 48) := rfl
  rw [entryRecord_formed, commitRecord_formed, hforms]
  refine ⟨length_formed hentry, ?_, ?_, ?_, fun stamp' seq' hother => ?_⟩
  · rw [readRecord_formed hentry, if_pos ⟨rfl, rfl⟩, spelled_entry hcells]
  · rw [readRecord_formed hcommit, if_pos ⟨rfl, rfl⟩, spelled_commit]
  · rw [readRecord_formed hfiller, if_pos ⟨rfl, rfl⟩, spelled_filler]
  · have hinvalid : ¬ (stamp = stamp' ∧ seq = seq') := by
      rintro ⟨rfl, rfl⟩
      simp at hother
    exact ⟨by rw [readRecord_formed hentry, if_neg hinvalid], by rw [readRecord_formed hcommit, if_neg hinvalid],
      by rw [readRecord_formed hfiller, if_neg hinvalid]⟩

end Sys2Proof.Machine
end

section
/-! The arbiter's choice, the one request of each grant (O15), and the rows that name a grant (O16). -/

namespace Sys2Proof.Machine

set_option Elab.async false

/-! ### Who has a ready request (R106, R112, R123, R138) -/

theorem outstandingOf_eq (s : State) (r : Requester) :
    s.outstandingOf r = (s.mem.outstanding.filter fun e => e.purpose.requester = r).length := List.countP_eq_length_filter

theorem recordReady_iff (s : State) : s.recordReady = true ↔ ∃ q rest, s.journal.queue = q :: rest
    ∧ (s.engine.state = .online ∨ s.engine.state = .quiescing) ∧ s.journal.failed = [] ∧ s.journal.outstanding.length < 8
    ∧ (q.kind = .commit → s.journal.outstanding = []) := by
  unfold State.recordReady
  cases s.journal.queue with
  | nil => simp
  | cons q rest =>
    have hkind : (q.kind ≠ .commit ∨ s.journal.outstanding = []) ↔ (q.kind = .commit → s.journal.outstanding = []) := by tauto
    simp [and_assoc, hkind]

theorem rewriteReady_iff (s : State) : s.rewriteReady = true ↔ (∃ own, s.engine.clear = some (.journal own))
    ∧ s.journal.outstanding = [] ∧ s.journal.failed ≠ [] ∧ ∀ e ∈ s.mem.outstanding, e.purpose ≠ .rewrite := by
  unfold State.rewriteReady State.rewriteInFlight
  cases s.engine.clear with
  | none => simp
  | some step => cases step <;> simp [and_assoc]

theorem applyReady_iff (s : State) : s.applyReady = true ↔ ∃ a g, s.apply = some a ∧ s.findGroup a.group = some g
    ∧ a.stopped = false ∧ a.nextPos < g.entries.length ∧ a.outstanding < 4 ∧ s.engine.state ≠ .recovering
    ∧ (.applyWrite ∉ s.engine.causes ∨ s.engine.clear = some (.apply true)) := by
  unfold State.applyReady
  cases s.apply with
  | none => simp
  | some a =>
    cases hg : s.findGroup a.group with
    | none => simp [State.applyLength, hg]
    | some g => simp [State.applyLength, hg, and_assoc]

theorem presentedWork_isSome_iff (s : State) :
    s.presentedWork.isSome = true ↔ ∃ w ∈ s.service.readyOrder, s.workReady w = true := List.find?_isSome

theorem reservePrecedence_iff (s : State) :
    s.reservePrecedence = true ↔ ∃ p, s.profile = some p ∧ s.pool.free.length ≤ p.openReserve.toNat := by
  unfold State.reservePrecedence State.freeSlots
  cases s.profile <;> simp

/-! ### The arbiter's choice (R139 to R141, R144) -/

theorem arbiterChoice_none {s : State}
    (h : 16 ≤ s.mem.outstanding.length ∨ s.mem.draining = true ∨ ∀ r, s.eligible r = false) : s.arbiterChoice = none := by
  unfold State.arbiterChoice
  split
  · rename_i hopen
    simp only [Bool.and_eq_true, Bool.not_eq_true', decide_eq_true_eq] at hopen
    obtain ⟨⟨-, hdrain⟩, hroom⟩ := hopen
    rcases h with hfull | hdraining | hnobody
    · omega
    · rw [hdrain] at hdraining; cases hdraining
    · simp [hnobody]
  · rfl

/-- What the arbiter chooses while the part runs, outside a drain and with room on the link. -/
theorem arbiterChoice_open {s : State} (hrun : s.run = .running) (hdrain : s.mem.draining = false)
    (hroom : s.mem.outstanding.length < 16) : s.arbiterChoice
      = if s.reservePrecedence && s.eligible .applyEngine then some (.applyEngine, false)
        else ((rotationAfter s.mem.pointer).find? s.eligible).map fun r => (r, true) := by
  unfold State.arbiterChoice
  exact if_pos (by simp [hrun, hdrain, hroom])

theorem granted_reserve {s : State} (hrun : s.run = .running) (hdrain : s.mem.draining = false)
    (hroom : s.mem.outstanding.length < 16) (hreserve : s.reservePrecedence = true) (helig : s.eligible .applyEngine = true) :
    Granted s .applyEngine false := by
  rw [Granted, arbiterChoice_open hrun hdrain hroom, hreserve, helig]
  rfl

theorem granted_rotation {s : State} {before after : List Requester} {r : Requester} (hrun : s.run = .running)
    (hdrain : s.mem.draining = false) (hroom : s.mem.outstanding.length < 16)
    (hreserve : s.reservePrecedence = true → s.eligible .applyEngine = false)
    (horder : rotationAfter s.mem.pointer = before ++ r :: after) (hbefore : ∀ q ∈ before, s.eligible q = false)
    (helig : s.eligible r = true) : Granted s r true := by
  have hrotates : ¬ (s.reservePrecedence && s.eligible .applyEngine) = true := by
    rw [Bool.and_eq_true]
    rintro ⟨h, h'⟩
    rw [hreserve h] at h'
    cases h'
  have hfirst : (rotationAfter s.mem.pointer).find? s.eligible = some r := by
    rw [horder, List.find?_append, List.find?_eq_none.2 (by simpa using hbefore), Option.none_or, List.find?_cons_of_pos helig]
  rw [Granted, arbiterChoice_open hrun hdrain hroom, if_neg hrotates, hfirst]
  rfl

/-- Only an eligible requester is granted. -/
theorem eligible_of_granted {s : State} {r : Requester} {byRotation : Bool} (h : Granted s r byRotation) :
    s.eligible r = true := by
  unfold Granted State.arbiterChoice at h
  split at h
  · split at h
    · rename_i hreserve
      cases h
      exact (Bool.and_eq_true_iff.1 hreserve).2
    · obtain ⟨q, hfound, hq⟩ := Option.map_eq_some_iff.1 h
      cases hq
      exact List.find?_some hfound
  · cases h

theorem ready_of_granted {s : State} {r : Requester} {byRotation : Bool} (h : Granted s r byRotation) :
    s.ready r = true := by
  have helig := eligible_of_granted h
  rw [State.eligible, Bool.and_eq_true] at helig
  exact helig.1

/-! ### A grant issues one request of its requester (R139) -/

/-- One request of requester `r` has joined the end of the outstanding list and gone out on the link; the pointer stays. -/
def IssuesFor (s t : State) (r : Requester) : Prop :=
  ∃ p q, p.requester = r ∧ t.mem.outstanding = s.mem.outstanding ++ [{ purpose := p, request := q, live := true }]
    ∧ t.out.issued = some q ∧ t.mem.pointer = s.mem.pointer

/-- What follows an issue in its event changes neither the list nor the link. -/
theorem issuesFor_of_issue {s t : State} {r : Requester} (p : Purpose) (q : MemRequest) (hp : p.requester = r)
    (hout : t.mem.outstanding = s.mem.outstanding ++ [{ purpose := p, request := q, live := true }])
    (hissued : t.out.issued = some q) (hpointer : t.mem.pointer = s.mem.pointer) : IssuesFor s t r :=
  ⟨p, q, hp, hout, hissued, hpointer⟩

theorem IssuesFor.congr {s t u : State} {r : Requester} (h : IssuesFor s t r) (hmem : u.mem = t.mem) (hout : u.out = t.out) :
    IssuesFor s u r := by
  unfold IssuesFor at h ⊢
  rwa [hmem, hout]

/-- The record at the front of the queue, `q`, has been issued; the SPACE holds and the distance trigger are still to come
(R107, R108). -/
def State.recordTaken (s : State) (q : QueuedRecord) (rest : List QueuedRecord) : State :=
  let t := s.updateGroup q.group (Group.issued q.kind s.journal.head s.journal.nextCommit)
  { t.issue .record (t.recordWrite q.kind (t.groupOf q.group) s.journal.head) with
    journal := { s.journal with
      queue := rest
      outstanding := s.journal.outstanding ++ [{ seq := s.journal.head, kind := q.kind, group := q.group }]
      head := s.journal.head + 1
      nextCommit := if q.kind = .commit then s.journal.nextCommit + 1 else s.journal.nextCommit } }

theorem issueRecord_eq {s : State} {q : QueuedRecord} {rest : List QueuedRecord} (h : s.journal.queue = q :: rest) :
    s.issueRecord = (s.recordTaken q rest).oweSpace.distanceTrigger := by
  simp only [State.issueRecord, h]
  rfl

theorem issueRecord_issuesFor {s : State} (h : s.recordReady = true) : IssuesFor s s.issueRecord .journalWriter := by
  obtain ⟨q, rest, hqueue, -⟩ := (recordReady_iff s).1 h
  rw [issueRecord_eq hqueue]
  have htaken : IssuesFor s (s.recordTaken q rest) .journalWriter := issuesFor_of_issue .record _ rfl rfl rfl rfl
  exact htaken.congr (by simp) (by simp)

theorem issueRewrite_issuesFor {s : State} (h : s.rewriteReady = true) : IssuesFor s s.issueRewrite .journalWriter := by
  obtain ⟨-, -, hfailed, -⟩ := (rewriteReady_iff s).1 h
  obtain ⟨r, rest, hcons⟩ := List.exists_cons_of_ne_nil hfailed
  unfold State.issueRewrite
  rw [hcons]
  exact issuesFor_of_issue .rewrite _ rfl rfl rfl rfl

theorem issueHomeWrite_issuesFor {s : State} (h : s.applyReady = true) : IssuesFor s s.issueHomeWrite .applyEngine := by
  obtain ⟨a, g, ha, hg, -, hpos, -⟩ := (applyReady_iff s).1 h
  have hentry : (s.groupOf a.group).entries[a.nextPos]? = some g.entries[a.nextPos] := by
    rw [State.groupOf, hg, Option.getD_some, List.getElem?_eq_getElem hpos]
  simp only [State.issueHomeWrite, ha, hentry]
  exact issuesFor_of_issue .homeWrite _ rfl rfl rfl rfl

theorem issuePath_issuesFor {s : State} (h : s.mem.path ≠ []) : IssuesFor s s.issuePath .requestPath := by
  obtain ⟨p, rest, hcons⟩ := List.exists_cons_of_ne_nil h
  simp only [State.issuePath, hcons]
  split
  · exact issuesFor_of_issue (.homeRead p.stream p.place) _ rfl rfl rfl rfl
  · exact issuesFor_of_issue (.passThrough p.stream p.place) _ rfl rfl rfl rfl

/-- A half is presented only of an anchor that is there (R131, R133). -/
theorem checkpointTurn_source {s : State} {turn : CheckpointTurn} (h : s.checkpointTurn = some turn) : match turn with
    | .first => True
    | .second => ∃ f, s.ckpt.inFlight = some f
    | .rewriteFirst | .rewriteSecond => ∃ r, s.ckpt.retained = some r := by
  unfold State.checkpointTurn at h
  split at h
  · rename_i f hflight
    split at h
    · cases h
    · cases h; exact ⟨f, hflight⟩
  · split at h
    · cases h
    · rename_i hretained
      cases h
      simp only [Bool.or_eq_true, not_or, Bool.not_eq_true, Option.isNone_eq_false_iff, Option.isSome_iff_exists] at hretained
      exact hretained.2
  · split at h
    · rename_i hretained
      cases h
      simp only [Bool.and_eq_true, Option.isSome_iff_exists] at hretained
      exact hretained.2
    · split at h
      · cases h; trivial
      · cases h

theorem issueTurn_issuesFor {s : State} {turn : CheckpointTurn} (h : s.checkpointTurn = some turn) :
    IssuesFor s (s.issueTurn turn) .serviceEngine := by
  have hsource := checkpointTurn_source h
  have half (second : Bool) (hretained : ∃ r, s.ckpt.retained = some r) :
      IssuesFor s (s.issueRewriteHalf second) .serviceEngine := by
    obtain ⟨r, hr⟩ := hretained
    simp only [State.issueRewriteHalf, hr]
    exact issuesFor_of_issue (.anchorHalf second true) _ rfl rfl rfl rfl
  cases turn with
  | first => exact issuesFor_of_issue (.anchorHalf false false) _ rfl rfl rfl rfl
  | second =>
    obtain ⟨f, hf⟩ := hsource
    simp only [State.issueTurn, State.issueSecondHalf, hf]
    exact issuesFor_of_issue (.anchorHalf true false) _ rfl rfl rfl rfl
  | rewriteFirst => exact half false hsource
  | rewriteSecond => exact half true hsource

/-- What recovery presents is a request of the Service Engine (R138, R149, R152 to R155). -/
theorem recoveryRequest_requester {s : State} {x : Purpose × MemRequest} (h : s.recoveryRequest = some x) :
    x.1.requester = .serviceEngine := by
  have hreplay {p : Replay} (h : s.replayRequest p = some x) : x.1.requester = .serviceEngine := by
    unfold State.replayRequest at h
    dsimp only at h
    split at h
    · split at h
      · cases h
      · rw [eq_of_guarded h]; rfl
    · rw [eq_of_guarded h]; rfl
  unfold State.recoveryRequest at h
  split at h
  · split at h
    · rw [eq_of_guarded h]; rfl
    · rw [eq_of_guarded h]; rfl
    · split at h
      · rw [eq_of_guarded h]; rfl
      · exact hreplay h
    · cases h
    · cases h
  · cases h

theorem formatRequest_requester {s : State} {x : Purpose × MemRequest} (h : s.formatRequest = some x) :
    x.1.requester = .serviceEngine := by
  unfold State.formatRequest at h
  split at h
  · cases h
  · rw [eq_of_guarded h]; rfl

theorem digestRequest_requester {s : State} {x : Purpose × MemRequest} (h : s.digestRequest = some x) :
    x.1.requester = .serviceEngine := by
  unfold State.digestRequest at h
  split at h
  · cases h
  · rw [eq_of_guarded h]; rfl

theorem issueRecovery_issuesFor (s : State) {x : Purpose × MemRequest} (h : x.1.requester = .serviceEngine) :
    IssuesFor s (s.issueRecovery x) .serviceEngine := by
  unfold State.issueRecovery
  dsimp only
  split
  all_goals exact issuesFor_of_issue x.1 x.2 h rfl rfl rfl

theorem issueWork_issuesFor {s : State} {w : ServiceWork} (h : s.workReady w = true) :
    IssuesFor s (s.issueWork w) .serviceEngine := by
  cases w with
  | checkpoint =>
    obtain ⟨turn, hturn⟩ := Option.isSome_iff_exists.1 h
    simp only [State.issueWork, hturn, Option.elim_some]
    exact issueTurn_issuesFor (s := { s with service := { s.service with readyOrder := s.service.readyOrder.erase .checkpoint } }) hturn
  | recovery =>
    obtain ⟨x, hx⟩ := Option.isSome_iff_exists.1 h
    simp only [State.issueWork, hx, Option.elim_some]
    exact issueRecovery_issuesFor _ (recoveryRequest_requester hx)
  | format =>
    obtain ⟨x, hx⟩ := Option.isSome_iff_exists.1 h
    simp only [State.issueWork, hx, Option.elim_some]
    exact issuesFor_of_issue x.1 x.2 (formatRequest_requester hx) rfl rfl rfl
  | digest =>
    obtain ⟨x, hx⟩ := Option.isSome_iff_exists.1 h
    simp only [State.issueWork, hx, Option.elim_some]
    exact issuesFor_of_issue x.1 x.2 (digestRequest_requester hx) rfl rfl rfl

theorem grantTo_issuesFor {s : State} {r : Requester} (h : s.ready r = true) : IssuesFor s (s.grantTo r) r := by
  cases r with
  | journalWriter =>
    rcases Bool.or_eq_true_iff.1 h with hready | hready
    · rw [State.grantTo, if_pos hready]
      exact issueRecord_issuesFor hready
    · by_cases hrecord : s.recordReady = true
      · rw [State.grantTo, if_pos hrecord]
        exact issueRecord_issuesFor hrecord
      · rw [State.grantTo, if_neg hrecord]
        exact issueRewrite_issuesFor hready
  | applyEngine => exact issueHomeWrite_issuesFor h
  | requestPath => exact issuePath_issuesFor (by simpa [State.ready] using h)
  | serviceEngine =>
    obtain ⟨w, hw⟩ := Option.isSome_iff_exists.1 h
    rw [State.grantTo, hw, Option.elim_some]
    exact issueWork_issuesFor (List.find?_some hw)

/-- The readiness of a requester does not depend on the pointer or the outputs. -/
theorem ready_pointed (s : State) (r q : Requester) (byRotation : Bool) : (s.pointed r byRotation).ready q = s.ready q := by
  cases q <;> rfl

/-- The event of a grant. -/
theorem exec_memoryGrant {s : State} {r : Requester} {byRotation : Bool} (hrun : s.run = .running)
    (hgrant : Granted s r byRotation) : exec .memoryGrant s = .next ((s.pointed r byRotation).grantTo r).finish := by
  have hchosen : s.chosen.isSome = true := by rw [chosen_of_granted hgrant]; rfl
  exact (happen_next hrun hchosen).trans (by rw [grant_of_granted hgrant])

theorem memoryGrant_leads {s : State} {r : Requester} {byRotation : Bool} (hrun : s.run = .running)
    (hgrant : Granted s r byRotation) : Leads .memoryGrant s fun t =>
      ∃ e, t.mem.outstanding = s.mem.outstanding ++ [e] ∧ e.live = true ∧ e.purpose.requester = r
        ∧ t.out.issued = some e.request ∧ t.mem.pointer = s.pointerAfter r byRotation := by
  obtain ⟨p, q, hp, hout, hissued, hpointer⟩ :=
    grantTo_issuesFor (s := s.pointed r byRotation) ((ready_pointed s r r byRotation).trans (ready_of_granted hgrant))
  have hmem : ((s.pointed r byRotation).grantTo r).finish.mem = ((s.pointed r byRotation).grantTo r).mem := by simp
  exact ⟨_, exec_memoryGrant hrun hgrant, { purpose := p, request := q, live := true },
    (congrArg MemoryPort.outstanding hmem).trans hout, rfl, hp, (finish_issued _).trans hissued,
    (congrArg MemoryPort.pointer hmem).trans hpointer⟩

/-- Settles O15: the rotation, who is eligible, whom the arbiter chooses, and the one request of a grant. -/
theorem arbiterRotates : Obligations.ArbiterRotates := by
  unfold Obligations.ArbiterRotates
  refine ⟨⟨rfl, rfl, rfl, rfl⟩, fun p => by cases p <;> rfl, fun s => ?_, fun s hrun => ⟨fun h => ?_, ?_, ?_, ?_⟩⟩
  · intro count
    refine ⟨?_, ?_, ?_, ?_, reservePrecedence_iff s⟩
    · rw [State.eligible, Bool.and_eq_true, and_comm, State.ready, Bool.or_eq_true, recordReady_iff, rewriteReady_iff,
        State.belowLimit, decide_eq_true_eq, outstandingOf_eq]
    · rw [State.eligible, Bool.and_eq_true, and_comm, State.ready, applyReady_iff, State.belowLimit, decide_eq_true_eq,
        outstandingOf_eq]
    · simp [State.eligible, State.ready, State.belowLimit]
    · rw [State.eligible, State.belowLimit, Bool.and_true, State.ready, presentedWork_isSome_iff]
  · exact untouched_leads rfl (by rw [State.chosen, arbiterChoice_none h]; rfl)
  · exact granted_reserve hrun
  · exact fun before r after => granted_rotation hrun
  · exact fun r byRotation => memoryGrant_leads hrun

/-! ### The rows that name a grant (R107, R112, R123, R131, R138, R140, R142) -/

/-- Two events with one effect, both with their conditions met, are one. -/
theorem happen_congr {s : State} {b c : Bool} {f : State → State} (hb : b = true) (hc : c = true) :
    happen s b f = happen s c f := by rw [hb, hc]

/-- Settles O16: the row that names the grant is MEMORY_GRANT, and any other row does not take place. -/
theorem grantRowsAreMemoryGrant : Obligations.GrantRowsAreMemoryGrant := by
  unfold Obligations.GrantRowsAreMemoryGrant
  intro s _
  refine ⟨fun h h' => ?_, fun h h' => ?_, fun h => happen_congr (by simp [h]) (by simp [h]), fun h h' => ?_, fun h h' => ?_,
    fun h h' => ?_, fun h h' => ?_, fun h => untouched_leads rfl ?_, fun h => untouched_leads rfl ?_,
    fun h => untouched_leads rfl ?_, fun h => untouched_leads rfl ?_, fun h => untouched_leads rfl ?_,
    fun h => untouched_leads rfl ?_, fun h => untouched_leads rfl ?_⟩
  case refine_1 | refine_2 | refine_3 | refine_4 | refine_5 | refine_6 =>
    exact happen_congr (by simp [h]) (by simp [h, h'])
  all_goals simpa [or_iff_not_imp_left] using h

end Sys2Proof.Machine
end

section
/-! The issue of a record (O17). -/

namespace Sys2Proof.Machine

set_option Elab.async false

/-! ### The write of a record (R102, R104, R107) -/

theorem recordWrite_addr {s : State} {f : Format} (hformat : s.journal.format = some f) (kind : RecordKind) (g : Group) (seq : Word) :
    (s.recordWrite kind g seq).addr = BitVec.ofNat 36 (journalBase s.abase + 4096 + 64 * (seq.toNat % Machine.ringSize f.code)) := by
  rw [State.recordWrite, State.recordRead, hformat]
  rfl

theorem recordBytes_entry {s : State} {f : Format} {id : SlotId} {x : Slot} (hformat : s.journal.format = some f)
    (hx : s.slot id = some x) (g : Group) (seq : Word) :
    s.recordBytes (.entry id) g seq = entryRecord f.stamp seq g x.line x.cells := by
  simp only [State.recordBytes, hformat, hx, Option.elim_some, Option.getD_some]

theorem recordBytes_commit {s : State} {f : Format} {g : Group} {n : Word} (hformat : s.journal.format = some f)
    (hn : g.commitNumber = some n) (seq : Word) : s.recordBytes .commit g seq = commitRecord f.stamp seq g n := by
  simp only [State.recordBytes, hformat, hn, Option.elim_some, Option.getD_some]

theorem recordBytes_filler {s : State} {f : Format} (hformat : s.journal.format = some f) (g : Group) (seq : Word) :
    s.recordBytes .filler g seq = fillerRecord f.stamp seq := by
  simp only [State.recordBytes, hformat, Option.elim_some]

/-! ### The tests and counts after an issue (R107, R114, R130) -/

/-- The re-examinations and the trigger at the end of an issue change the holds and the pending want alone. -/
theorem oweSpace_distanceTrigger_eq (s : State) : s.oweSpace.distanceTrigger = { s with
    holds := s.oweSpace.holds
    ckpt := { s.ckpt with pending := s.ckpt.pending || s.distanceHolds } } := by
  have hholds : s.oweSpace.distanceHolds = s.distanceHolds := rfl
  unfold State.distanceTrigger
  rw [hholds]
  split
  · rename_i h
    rw [h, Bool.or_true]
    rfl
  · rename_i h
    rw [Bool.not_eq_true] at h
    rw [h, Bool.or_false]
    rfl

/-- A change of a descriptor fills or frees none. -/
theorem openCount_update {s t : State} {ref : Nat} {f : Group → Group} (h : t.groups = s.groups.update ref f) :
    t.openCount = s.openCount := by
  have hopens : t.groups.opens.toList = s.groups.opens.toList.map (Option.map fun g => if g.ref = ref then f g else g) := by
    rw [h]
    simp [GroupTable.update, mapV]
  rw [State.openCount, hopens, List.countP_map, State.openCount]
  exact List.countP_congr fun g _ => by simp

/-! ### The issue of the front record -/

/-- The front record `q` of the group `g` has been issued (R107, R108), before the re-examinations and the distance trigger. -/
def State.recordIssued (s : State) (q : QueuedRecord) (rest : List QueuedRecord) (g : Group) (byRotation : Bool) : State :=
  let r := s.recordWrite q.kind (Group.issued q.kind s.journal.head s.journal.nextCommit g) s.journal.head
  { s with
    groups := s.groups.update q.group (Group.issued q.kind s.journal.head s.journal.nextCommit)
    journal := { s.journal with
      queue := rest
      outstanding := s.journal.outstanding ++ [{ seq := s.journal.head, kind := q.kind, group := q.group }]
      head := s.journal.head + 1
      nextCommit := if q.kind = .commit then s.journal.nextCommit + 1 else s.journal.nextCommit }
    mem := { s.mem with outstanding := s.mem.outstanding ++ [{ purpose := .record, request := r, live := true }]
                        pointer := s.pointerAfter .journalWriter byRotation }
    out := onlyIssue r }

theorem groupOf_issued {s : State} (q : QueuedRecord) {g : Group} (hg : s.findGroup q.group = some g) :
    (s.updateGroup q.group (Group.issued q.kind s.journal.head s.journal.nextCommit)).groupOf q.group
      = Group.issued q.kind s.journal.head s.journal.nextCommit g := by
  have hfound : (s.updateGroup q.group (Group.issued q.kind s.journal.head s.journal.nextCommit)).findGroup q.group
      = some (Group.issued q.kind s.journal.head s.journal.nextCommit g) := findGroup_update (fun _ => rfl) hg rfl
  rw [State.groupOf, hfound, Option.getD_some]

/-- The write reads the group as the issue has changed it, and the slot and the format as they stand. -/
theorem recordTaken_pointed {s : State} {q : QueuedRecord} {rest : List QueuedRecord} {g : Group} (byRotation : Bool)
    (hg : s.findGroup q.group = some g) :
    (s.pointed .journalWriter byRotation).recordTaken q rest = s.recordIssued q rest g byRotation := by
  have hgroup := groupOf_issued (s := s.pointed .journalWriter byRotation) q hg
  simp only [State.recordTaken, hgroup]
  rfl

/-- RECORD_ISSUE of the front record (R107, R108, R113, R114, R130). -/
theorem recordIssue_leads {s : State} {q : QueuedRecord} {rest : List QueuedRecord} {g : Group} {byRotation : Bool}
    (hlive : Live s) (hgrant : Granted s .journalWriter byRotation) (hready : s.recordReady = true)
    (hqueue : s.journal.queue = q :: rest) (hg : s.findGroup q.group = some g) :
    Leads .recordIssue s fun t =>
      let u := s.recordIssued q rest g byRotation
      t.out = u.out ∧ t.findGroup q.group = some (Group.issued q.kind s.journal.head s.journal.nextCommit g)
      ∧ t.claims + 1 = s.claims ∧ Owes s t (fun _ w => w.kind = .space)
      ∧ Becomes t { u with
          holds := t.holds
          ckpt := { s.ckpt with pending := s.ckpt.pending || t.distanceHolds } } := by
  have hgranted : s.clearOut.grant = (s.recordIssued q rest g byRotation).oweSpace.distanceTrigger := by
    rw [grant_of_granted hgrant, State.grantTo, if_pos (by exact hready), issueRecord_eq (by exact hqueue),
      recordTaken_pointed byRotation hg]
  rw [oweSpace_distanceTrigger_eq] at hgranted
  refine leads_quiet (f := State.grant) rfl hlive.1 (by simp [chosen_of_granted hgrant, hready]) hgranted
    (noReadyFront_of_ports hlive.2 rfl) fun t ht htout => ?_
  obtain ⟨-, -, -, -, -, hgroups, -, -, hholds, hjournal, -, hckpt, -⟩ := ht.fields
  have hdistance : t.distanceHolds = (s.recordIssued q rest g byRotation).distanceHolds :=
    distanceHolds_congr hjournal (by rw [hckpt])
  refine ⟨htout, findGroup_update (fun _ => rfl) hg hgroups, ?_, ?_, ?_⟩
  · have hrest : t.journal.queue = rest := congrArg JournalWriter.queue hjournal
    rw [State.claims, State.claims, openCount_update hgroups, hrest, hqueue, List.length_cons]
    omega
  · exact owes_of_map (f := fun _ w => w.kind = .space) (fun o => by rw [hholds]; exact getV_owe _ _ o) (by simp)
  · rw [hdistance, hholds]
    exact ht

/-- Settles O17: the content of a record, and what its issue changes. -/
theorem recordIssueTakesTheHead : Obligations.RecordIssueTakesTheHead := by
  unfold Obligations.RecordIssueTakesTheHead
  refine ⟨fun s f g seq hformat => ⟨fun kind => recordWrite_addr hformat kind g seq, fun id x hx => ?_, fun n hn => ?_, ?_⟩,
    fun s q rest g byRotation => recordIssue_leads⟩
  · exact congrArg (Op.write <| allPresent ·) (recordBytes_entry hformat hx g seq)
  · exact congrArg (Op.write <| allPresent ·) (recordBytes_commit hformat hn seq)
  · exact congrArg (Op.write <| allPresent ·) (recordBytes_filler hformat g seq)

end Sys2Proof.Machine
end

section
/-! The issue of a checkpoint (O21). -/

namespace Sys2Proof.Machine

set_option Elab.async false

/-! ### The anchor and its first half (R100, R131, R186) -/

theorem formAnchor_eq {s : State} {f : Format} {pr : Profile} (hformat : s.journal.format = some f)
    (hprofile : (if s.ckpt.request = some .resume then s.engine.activation else s.profile) = some pr) : s.formAnchor
      = { stamp := f.stamp, code := f.code, number := s.ckpt.number + 1, tail := s.journal.liveTail
          through := s.ckpt.retiredThrough, nextGroup := s.groups.nextGroup, nextCommit := s.journal.nextCommit
          profile := pr } := by
  simp only [State.formAnchor, hformat, hprofile, Option.elim_some, Option.getD_some]

theorem otherCopy_eq (last : Option Copy) : otherCopy last = if last = some .a then .b else .a := by
  rcases last with _ | _ | _ <;> rfl

theorem anchorHalf_first (a : Anchor) : anchorHalf a false = (anchorBytes a).take 128 := rfl

/-- The Service Engine presents a checkpoint's first half: what its grant does (R131, R138). -/
theorem grantTo_checkpoint {s : State} (h : s.presentsCheckpoint = true) : s.grantTo .serviceEngine
    = State.issueCheckpoint { s with service := { s.service with readyOrder := s.service.readyOrder.erase .checkpoint } } := by
  rw [State.presentsCheckpoint, Bool.and_eq_true, decide_eq_true_eq, decide_eq_true_eq] at h
  obtain ⟨hwork, hturn⟩ := h
  rw [State.grantTo, hwork, Option.elim_some, State.issueWork, hturn, Option.elim_some]
  rfl

/-- CHECKPOINT_ISSUE (R131): the want and the request are taken into the flight. -/
theorem checkpointIssue_leads {s : State} {byRotation : Bool} (hlive : Live s) (hgrant : Granted s .serviceEngine byRotation)
    (hpresents : s.presentsCheckpoint = true) : Leads .checkpointIssue s fun t =>
      let copy := otherCopy s.ckpt.lastCopy
      let r := s.anchorWrite copy s.formAnchor false
      t.out = onlyIssue r ∧ Becomes t { s with
        ckpt := { s.ckpt with
          pending := false
          request := none
          inFlight := some
            { copy := copy, anchor := s.formAnchor, answers := s.ckpt.request, first := none, secondGranted := false } }
        mem := { s.mem with
          outstanding := s.mem.outstanding ++ [{ purpose := .anchorHalf false false, request := r, live := true }]
          pointer := s.pointerAfter .serviceEngine byRotation } } := by
  have hissued := grant_of_granted hgrant
  rw [grantTo_checkpoint (by exact hpresents)] at hissued
  exact leads_quiet (f := State.grant) rfl hlive.1 (by simp [chosen_of_granted hgrant, hpresents]) hissued
    (noReadyFront_of_ports hlive.2 rfl) fun t ht htout => ⟨htout, ht⟩

/-- Settles O21: the anchor content and its copy, in the issue of a checkpoint. -/
theorem checkpointIssueFormsTheAnchor : Obligations.CheckpointIssueFormsTheAnchor := by
  unfold Obligations.CheckpointIssueFormsTheAnchor
  intro s f pr byRotation hlive hgrant hpresents hformat hprofile
  have hissue := checkpointIssue_leads hlive hgrant hpresents
  simp only [formAnchor_eq hformat hprofile, otherCopy_eq, State.anchorWrite, anchorHalf_first] at hissue
  exact hissue

end Sys2Proof.Machine
end

section
/-! The completions of FORMAT's writes (O37) and of DIGEST's reads (O38). -/

namespace Sys2Proof.Machine

set_option Elab.async false

/-! ### FORMAT's anchor writes (R172) -/

/-- The end of FORMAT and of RESUME owes each QUIESCE hold a re-examination (R67). -/
theorem owes_oweQuiesce (s : State) : Owes s s.oweQuiesce fun _ w => w.kind = .quiesce :=
  owes_of_map (f := fun _ w => w.kind = .quiesce) (getV_owe s _) (by simp)

/-- FORMAT's values at its end DONE (R119, R135, R162, R172): the new format and the activated profile, ONLINE. -/
def State.formatted (s : State) (w : FormatWork) : State :=
  { s with
    profile := s.engine.activation
    groups := { s.groups with nextGroup := 1 }
    journal := JournalWriter.cleared (some { code := w.code, stamp := w.stamp })
    ckpt := { CheckpointLogic.coldReset with number := 2, lastCopy := some .a }
    engine := s.engine.formatted .online
    service := { s.service with format := none }
    mgmt := (s.mgmt.push (.state .online)).ended .format .done }

/-- The values at its end FAILED: neither format nor profile, and the writes still outstanding are to be ignored (R172). -/
def State.unformatted (s : State) : State :=
  { s with
    profile := none
    journal := JournalWriter.cleared none
    ckpt := CheckpointLogic.coldReset
    engine := s.engine.formatted .unformatted
    mem := { s.mem with outstanding := ignoring (· == .formatWrite) s.mem.outstanding }
    service := { s.service with format := none }
    mgmt := s.mgmt.ended .format .failed }

theorem formatDone_eq {s : State} (w : FormatWork) (hrun : s.mgmt.running = some .format) :
    s.formatDone w = (s.formatted w).oweQuiesce := by
  have hrunning : (s.mgmt.push (.state .online)).running = some .format := by simpa using hrun
  rw [State.formatDone, endIf_eq]
  dsimp only [State.pushEvent]
  rw [endsIf_running _ hrunning]
  rfl

theorem formatFailed_eq {s : State} (hrun : s.mgmt.running = some .format) : s.formatFailed = s.unformatted.oweQuiesce := by
  rw [State.formatFailed, endIf_eq]
  dsimp only [State.ignore]
  rw [endsIf_running _ hrun]
  rfl

theorem formatWriteDone_more {s : State} {w : FormatWork} (hw : s.service.format = some w) (h : w.acked + 1 ≠ 4) :
    s.formatWriteDone .ok = { s with service := { s.service with format := some { w with acked := w.acked + 1 } } } := by
  simp only [State.formatWriteDone, hw]
  exact if_neg h

theorem formatWriteDone_last {s : State} {w : FormatWork} (hw : s.service.format = some w) (h : w.acked + 1 = 4)
    (hrun : s.mgmt.running = some .format) : s.formatWriteDone .ok = (s.formatted w).oweQuiesce := by
  simp only [State.formatWriteDone, hw]
  rw [if_pos h, formatDone_eq _ (by exact hrun)]
  rfl

theorem formatWriteDone_error {s : State} {w : FormatWork} (hw : s.service.format = some w)
    (hrun : s.mgmt.running = some .format) : s.formatWriteDone .error = s.unformatted.oweQuiesce := by
  simp only [State.formatWriteDone, hw]
  exact formatFailed_eq hrun

/-- The completion of a FORMAT write that re-examines the QUIESCE holds (R67). -/
theorem formatWrite_owes {s u : State} {e : MemEntry} {rest : List MemEntry} {st : MemStatus} (hlive : Live s)
    (haw : Awaits s e rest) (hpurpose : e.purpose = .formatWrite)
    (hu : State.formatWriteDone (s.completing rest) st = u.oweQuiesce) (hports : u.ports = s.ports) (hholds : u.holds = s.holds)
    (hout : u.out = Outputs.none) : Leads (.formatAnchorWriteCompletion st) s fun t =>
      Owes s t (fun _ h => h.kind = .quiesce) ∧ t.out = Outputs.none ∧ Becomes t { u with holds := t.holds } := by
  refine acknowledge_leads (f := (State.formatWriteDone · st)) rfl hlive haw (by rw [hpurpose]; rfl) rfl hu hports
    fun t ht htout => ?_
  obtain ⟨-, -, -, -, -, -, -, -, hheld, -⟩ := ht.fields
  refine ⟨(owes_oweQuiesce u).imp hholds.symm (fun _ _ _ => Iff.rfl) |>.congr hheld, htout.trans hout, ?_⟩
  rw [hheld]
  exact ht

/-- Settles O37: the writes of FORMAT one by one, its end DONE and its end FAILED. -/
theorem formatWritesEndTheCommand : Obligations.FormatWritesEndTheCommand := by
  unfold Obligations.FormatWritesEndTheCommand
  intro s e rest w hlive haw hpurpose hw hrun
  refine ⟨fun hmore => ?_, fun hlast => ?_, ?_⟩
  · exact acknowledge_leads (f := (State.formatWriteDone · .ok)) rfl hlive haw (by rw [hpurpose]; rfl) rfl
      (formatWriteDone_more (by exact hw) hmore) rfl fun t ht htout => ⟨htout, ht⟩
  · exact formatWrite_owes hlive haw hpurpose (formatWriteDone_last (s := s.completing rest) hw hlast hrun) rfl rfl rfl
  · exact formatWrite_owes hlive haw hpurpose (formatWriteDone_error (s := s.completing rest) hw hrun) rfl rfl rfl

/-! ### DIGEST's reads (R174) -/

/-- The digest record with these bytes fed (R103, R174). -/
def DigestRecord.fed (d : DigestRecord) (data : List Byte) : DigestRecord :=
  { d with crc := crcFeed d.crc data, processed := d.processed + data.length }

theorem digestReadDone_more {s : State} {d : DigestRecord} {data : List Byte} (hd : s.service.digest = some d)
    (h : d.processed + data.length < d.stop - d.start) :
    s.digestReadDone (.ok data) = { s with service := { s.service with digest := some (d.fed data) } } := by
  simp only [State.digestReadDone, hd]
  exact if_neg (by omega)

theorem digestReadDone_last {s : State} {d : DigestRecord} {data : List Byte} (hd : s.service.digest = some d)
    (h : d.stop - d.start ≤ d.processed + data.length) : s.digestReadDone (.ok data) = { s with
      mem := { s.mem with outstanding := ignoring Purpose.isDigestRead s.mem.outstanding }
      service := { s.service with digest := none }
      mgmt := ({ s.mgmt with
        running := none
        result := { s.mgmt.result with result := .done }
        digestResult := ~~~ (d.fed data).crc
        coveredBytes := (d.fed data).processed }).push (.digestDone (~~~ (d.fed data).crc)) } := by
  simp only [State.digestReadDone, hd]
  exact if_pos h

theorem digestReadDone_error {s : State} {d : DigestRecord} (hd : s.service.digest = some d)
    (hrun : s.mgmt.running = some .digest) : s.digestReadDone .error = { s with
      mem := { s.mem with outstanding := ignoring Purpose.isDigestRead s.mem.outstanding }
      service := { s.service with digest := none }
      mgmt := ({ s.mgmt with digestResult := ~~~ d.crc, coveredBytes := d.processed }).ended .digest .failed } := by
  simp only [State.digestReadDone, hd]
  rw [endIf_eq, endsIf_running _ (by exact hrun)]
  rfl

/-- Settles O38: a read in the middle, the read that completes the range, and a read that fails. -/
theorem digestReadsFeedTheCrc : Obligations.DigestReadsFeedTheCrc := by
  unfold Obligations.DigestReadsFeedTheCrc
  intro s e rest d hlive haw hpurpose hd hrun
  have hserves : e.purpose.isDigestRead = true := by rw [hpurpose]; rfl
  refine ⟨fun data hfits => ⟨fun hmore => ?_, fun hlast => ?_⟩, ?_⟩
  · exact complete_leads (f := fun _ t => t.digestReadDone (.ok data)) rfl hlive haw hserves hfits
      (digestReadDone_more (by exact hd) hmore) rfl fun t ht htout => ⟨htout, ht⟩
  · exact complete_leads (f := fun _ t => t.digestReadDone (.ok data)) rfl hlive haw hserves hfits
      (digestReadDone_last (by exact hd) hlast) rfl fun t ht htout => ⟨htout, ht⟩
  · exact complete_leads (f := fun _ t => t.digestReadDone .error) rfl hlive haw hserves rfl
      (digestReadDone_error (by exact hd) hrun) rfl fun t ht htout => ⟨htout, ht⟩

end Sys2Proof.Machine
end

section
/-! A drain and its end (O31). -/

namespace Sys2Proof.Machine

set_option Elab.async false

/-- The drain's last completion, with no FORMAT to serve: recovery begins (R160). -/
theorem drainCheck_recovery {s : State} (h : s.mem.outstanding = []) (hwork : s.service.format = none) :
    s.drainCheck = s.restartClearing := by
  simp only [State.drainCheck, h, hwork, List.isEmpty_nil, if_true]
  split
  · rename_i hnone; cases hnone
  · rfl

/-- A drain completion discards the front entry; what the list is then decides the rest (R144). -/
theorem drainCompletion_leads {s u : State} {e : MemEntry} {rest : List MemEntry} {P : State → Prop} (hlive : Live s)
    (hdrain : s.mem.draining = true) (hlist : s.mem.outstanding = e :: rest) (hu : (s.completing rest).drainCheck = u)
    (hports : u.ports = s.ports) (hP : ∀ t, Becomes t u → t.out = u.out → P t) : Leads .drainCompletion s P := by
  have hfront : s.clearOut.dropFront = s.completing rest := by
    simp [State.dropFront, State.clearOut, State.completing, hlist]
  exact leads_quiet (f := fun t => t.dropFront.drainCheck) rfl hlive.1 (by simp [hdrain, hlist]) (by rw [hfront, hu])
    (noReadyFront_of_ports hlive.2 hports) hP

/-- Settles O31: a completion in a drain, and the last one for RESTART and for FORMAT. -/
theorem drainDiscardsAndClears : Obligations.DrainDiscardsAndClears := by
  unfold Obligations.DrainDiscardsAndClears
  intro s e rest hlive hdrain hlist
  refine ⟨fun hmore => ?_, fun hlast hwork => ?_, fun w hlast hrun hwork => ?_⟩
  · exact drainCompletion_leads hlive hdrain hlist (drainCheck_waits (s := s.completing rest) hmore) rfl
      fun t ht hout => ⟨hout, ht⟩
  · refine drainCompletion_leads hlive hdrain hlist (drainCheck_recovery (s := s.completing rest) hlast hwork) rfl
      fun t ht hout => ?_
    have hcleared : Cleared s (s.completing rest).restartClearing s.ckpt.retiredThrough :=
      cleared_of_blocks rfl rfl rfl rfl rfl rfl rfl rfl ⟨rfl, rfl, rfl⟩
    refine ⟨hcleared.becomes ht, ?_⟩
    unfold Becomes at ht
    rw [ht]
    exact ⟨rfl, rfl, rfl, rfl, rfl, hout, rfl, rfl, rfl, rfl⟩
  · obtain ⟨hr, habase, hnow, hports, hprofile, hnone, -, hpending⟩ := State.formatClearing_keeps (s.completing rest) w
    refine drainCompletion_leads hlive hdrain hlist (drainCheck_format (s := s.completing rest) hlast hrun hwork) hports
      fun t ht hout => ?_
    have hcleared : Cleared s t 0 := (cleared_formatClearing (s := s.completing rest) w hrun).becomes ht
    have hchecked : FormatChecked s t w s.mgmt := (formatChecked_formatClearing (s := s.completing rest) w hrun).becomes ht
    unfold Becomes at ht
    exact ⟨hcleared, by rw [ht]; exact hprofile, by rw [ht]; exact hports, by rw [ht]; exact ⟨hr, habase, hnow, hpending⟩,
      hout.trans hnone, hchecked⟩

end Sys2Proof.Machine
end

section
/-! The start of apply and home writes acknowledged short of the last (O25). -/

namespace Sys2Proof.Machine

set_option Elab.async false

/-! ### The start of apply (R121, R122) -/

/-- The states in which a group may start to apply (R121). -/
def EngineState.applies (x : EngineState) : Prop := x = .online ∨ x = .quiescing ∨ x = .faulted

theorem applyStartable_iff (s : State) : s.applyStartable = true ↔ s.apply = none ∧ s.engine.state.applies
    ∧ s.mem.draining = false ∧ ∃ g more, s.groups.pipeline = g :: more ∧ g.state = .sealed := by
  unfold State.applyStartable EngineState.applies
  cases s.groups.pipeline <;> simp [and_assoc, or_assoc]

theorem startApply_eq {s : State} {g : Group} {more : List Group} (h : s.groups.pipeline = g :: more) : s.startApply = { s with
    groups := s.groups.update g.ref fun x => { x with state := .applying }
    apply := some { group := g.ref, nextPos := 0, outstanding := 0, acked := 0, stopped := false } } := by
  simp only [State.startApply, h]
  rfl

/-! ### A home write acknowledged (R124) -/

/-- A home write is acknowledged, and it is not the one that retires the group. -/
def ApplyRecord.acknowledged (a : ApplyRecord) : ApplyRecord :=
  { a with outstanding := a.outstanding - 1, acked := if a.stopped then a.acked else a.acked + 1 }

theorem homeWriteOk_more {s : State} {a : ApplyRecord} (ha : s.apply = some a)
    (hmore : a.stopped = true ∨ a.acked + 1 ≠ s.applyLength a) :
    s.homeWriteOk = State.continueClear { s with apply := some a.acknowledged } := by
  have hnot : ¬ (!a.stopped && decide (a.acknowledged.acked = s.applyLength a)) = true := by
    rw [Bool.and_eq_true, Bool.not_eq_true', decide_eq_true_eq]
    rintro ⟨hstopped, hlast⟩
    rcases hmore with h | h
    · rw [hstopped] at h; cases h
    · exact h (by simpa [ApplyRecord.acknowledged, hstopped] using hlast)
  simp only [State.homeWriteOk, ha]
  exact congrArg State.continueClear (if_neg hnot)

/-- One write less is outstanding: CLEAR_FAULT still waits. -/
theorem ClearWaits.oneLess {s t : State} {a b : ApplyRecord} (h : ClearWaits s 1) (ha : s.apply = some a)
    (he : t.engine = s.engine) (hj : t.journal = s.journal) (hb : t.apply = some b) (hless : b.outstanding = a.outstanding - 1) :
    ClearWaits t 0 := by
  unfold ClearWaits at h ⊢
  rw [he, hj]
  cases hclear : s.engine.clear with
  | none => trivial
  | some step =>
    rw [hclear] at h
    cases step with
    | journal own => exact h
    | anchor => trivial
    | apply started =>
      obtain ⟨a', ha', hleft⟩ := h
      obtain rfl : a = a' := Option.some.inj (ha.symm.trans ha')
      exact ⟨b, hb, hleft.imp_right fun hleft => by omega⟩

/-- The last write that CLEAR_FAULT's apply step has waited for: the new attempt begins (R127). -/
theorem continueClear_attempt {s : State} {a : ApplyRecord} (ha : s.apply = some a) (hzero : a.outstanding = 0)
    (hclear : s.engine.clear = some (.apply false)) : s.continueClear = s.startAttempt a := by
  simp [State.continueClear, hclear, ha, hzero]

/-- Settles O25: the start of apply, and the acknowledgements that do not retire the group. -/
theorem applyStartsAndCounts : Obligations.ApplyStartsAndCounts := by
  unfold Obligations.ApplyStartsAndCounts
  refine ⟨fun s hlive => ⟨fun g more hnone hpipeline hsealed hdrain hstate => ?_, fun hnot => ?_⟩,
    fun s e rest a hlive haw hpurpose ha hwaits hmore => ?_, fun s e rest a hlive haw hpurpose ha hstopped hlast hclear => ?_⟩
  · have hstartable := (applyStartable_iff s).2 ⟨hnone, hstate, hdrain, g, more, hpipeline, hsealed⟩
    exact leads_quiet (f := State.startApply) rfl hlive.1 hstartable
      (startApply_eq (s := s.clearOut) hpipeline) (noReadyFront_of_ports hlive.2 rfl) fun t ht hout => ⟨hout, ht⟩
  · refine untouched_leads rfl (Bool.eq_false_iff.2 fun hstartable => ?_)
    obtain ⟨hnone, hstate, hdrain, g, more, hpipeline, hsealed⟩ := (applyStartable_iff s).1 hstartable
    rcases hnot with h | h | h | h | h | h
    · simp [hnone] at h
    · exact h g more hpipeline hsealed
    · simp [EngineState.applies, h] at hstate
    · simp [EngineState.applies, h] at hstate
    · simp [EngineState.applies, h] at hstate
    · simp [hdrain] at h
  · have hok : State.homeWriteOk (s.completing rest) = { s.completing rest with apply := some a.acknowledged } :=
      (homeWriteOk_more (s := s.completing rest) ha hmore).trans
        (continueClear_of_waits (hwaits.oneLess ha rfl rfl rfl rfl))
    exact acknowledge_leads (f := State.homeWriteOk) rfl hlive haw (by rw [hpurpose]; rfl) rfl hok rfl
      fun t ht hout => ⟨hout, ht⟩
  · have hzero : a.acknowledged.outstanding = 0 := by simp [ApplyRecord.acknowledged, hlast]
    have hok : State.homeWriteOk (s.completing rest) =
        State.startAttempt { s.completing rest with apply := some a.acknowledged } a.acknowledged :=
      (homeWriteOk_more (s := s.completing rest) ha (.inl hstopped)).trans
        (continueClear_attempt rfl hzero hclear)
    refine acknowledge_leads (f := State.homeWriteOk) rfl hlive haw (by rw [hpurpose]; rfl) rfl hok rfl
      fun t ht hout => ⟨hout, ?_⟩
    rw [State.startAttempt, hzero] at ht
    exact ht

end Sys2Proof.Machine
end

section
/-! A checkpoint acknowledged OK (O28). -/

namespace Sys2Proof.Machine

set_option Elab.async false

/-! ### Engine Control's answers outside FAULTED (R157, R160, R167, R170) -/

/-- What Engine Control makes of the success of the checkpoint it has asked for, outside FAULTED. -/
def State.answeredBy (s : State) : Option CheckpointRequest → State
  | none => s
  | some .quiesce => { s with
      engine := { s.engine with state := .quiesced }
      mgmt := s.mgmt.push (.state .quiesced) }
  | some .resume => State.oweQuiesce { s with
      profile := s.engine.activation
      engine := { s.engine with state := .online, activation := none }
      mgmt := (s.mgmt.push (.state .online)).ended .resume .done }
  | some .recovery => { s with
      engine := { s.engine with state := .online }
      service := { s.service with recovery := { s.service.recovery with phase := none } }
      mgmt := (s.mgmt.push (.recoveryDone s.service.recovery.groupsReplayed)).restartEnds .done }

/-- No answer leaves by the request port. -/
theorem answeredBy_keeps (s : State) (answers : Option CheckpointRequest) :
    (s.answeredBy answers).ports = s.ports ∧ (s.answeredBy answers).out = s.out := by
  rcases answers with _ | _ | _ | _
  all_goals exact ⟨rfl, rfl⟩

/-- The engine is where the request that is answered has been made (R129, R167, R170). -/
def Answerable (s : State) (answers : Option CheckpointRequest) : Prop :=
  answers = none ∨ answers = some .quiesce ∧ s.engine.state = .quiescing
    ∨ answers = some .resume ∧ s.engine.state = .quiesced ∧ s.mgmt.running = some .resume ∧ s.engine.activation.isSome
    ∨ answers = some .recovery ∧ s.engine.state = .recovering

theorem answerRequest_quiesce {s : State} (hstate : s.engine.state = .quiescing) :
    s.answerRequest .quiesce = s.answeredBy (some .quiesce) := by
  simp [State.answerRequest, State.enterOnSuccess, State.announce, State.pushEvent, State.answeredBy, hstate]

/-- A RESUME ends with the activation copy active. -/
theorem answerRequest_resume {s : State} (hstate : s.engine.state = .quiesced) (hrun : s.mgmt.running = some .resume)
    (hcopy : s.engine.activation.isSome) : s.answerRequest .resume = s.answeredBy (some .resume) := by
  have hrunning : (s.mgmt.push (.state .online)).running = some .resume := by simpa using hrun
  have hactive : (s.engine.activation <|> s.profile) = s.engine.activation := by
    obtain ⟨p, hp⟩ := Option.isSome_iff_exists.1 hcopy
    rw [hp]; rfl
  simp only [State.answerRequest, State.activate, hactive, State.enterOnSuccess, hstate, State.announce, State.pushEvent,
    endIf_eq, reduceCtorEq, if_false, if_true, endsIf_running _ hrunning, State.answeredBy]

/-- Recovery ends, and with it a RESTART that runs. -/
theorem answerRequest_recovery {s : State} (hstate : s.engine.state = .recovering) :
    s.answerRequest .recovery = s.answeredBy (some .recovery) := by
  simp only [State.answerRequest, State.enterOnSuccess, hstate, State.recoveryDone, State.pushEvent, endIf_eq, reduceCtorEq,
    if_false]
  rfl

theorem elim_answerRequest {s : State} {answers : Option CheckpointRequest} (h : Answerable s answers) :
    answers.elim s s.answerRequest = s.answeredBy answers := by
  rcases h with rfl | ⟨rfl, hstate⟩ | ⟨rfl, hstate, hrun, hcopy⟩ | ⟨rfl, hstate⟩
  · rfl
  · exact answerRequest_quiesce hstate
  · exact answerRequest_resume hstate hrun hcopy
  · exact answerRequest_recovery hstate

/-! ### Both halves acknowledged (R132) -/

/-- The anchor of `f` has landed and its flight is over; its request is not yet answered. -/
def State.flightLanded (s : State) (f : Flight) : State :=
  State.oweSpace { s with ckpt := { s.ckpt with
    durableTail := f.anchor.tail, number := f.anchor.number, lastCopy := some f.copy, inFlight := none } }

theorem checkpointOk_eq {s : State} {f : Flight} (hflight : s.ckpt.inFlight = some f) (h : Answerable s f.answers) :
    s.checkpointOk = ((s.flightLanded f).answeredBy f.answers).distanceTrigger := by
  rw [← elim_answerRequest (s := s.flightLanded f) h]
  simp only [State.checkpointOk, hflight]
  rfl

/-- The second half has come in OK, as the first had: what its completion makes of `s`. -/
theorem exec_checkpointAcknowledgement {s : State} {e : MemEntry} {rest : List MemEntry} {rewrite : Bool} (hlive : Live s)
    (haw : Awaits s e rest) (hpurpose : e.purpose = .anchorHalf true rewrite) (hfirst : s.firstHalf = some .ok) :
    exec .checkpointAcknowledgement s
      = .next ((if rewrite then State.rewriteOk else State.checkpointOk) (s.completing rest)).finish := by
  change acknowledge s Purpose.isSecondHalf (s.firstHalf = some .ok)
    (if s.frontIsRewrite then State.rewriteOk else State.checkpointOk) = _
  rw [acknowledge_next hlive.1 haw (by rw [hpurpose]; rfl) (by simpa using hfirst), dropFront_awaits haw,
    frontIsRewrite_awaits haw hpurpose]
  rfl

/-- The trigger at the end of an event wants a checkpoint where its distance holds, and does nothing else (R130). -/
theorem distanceTrigger_eq (s : State) :
    s.distanceTrigger = { s with ckpt := { s.ckpt with pending := s.ckpt.pending || s.distanceHolds } } := by
  unfold State.distanceTrigger
  split
  · rename_i h; simp [State.wantCheckpoint, h]
  · rename_i h; simp [h]

theorem distanceTrigger_ckpt (s : State) :
    s.distanceTrigger.ckpt = { s.ckpt with pending := s.ckpt.pending || s.distanceTrigger.distanceHolds } := by
  have hholds : s.distanceTrigger.distanceHolds = s.distanceHolds :=
    distanceHolds_congr (by simp) (by rw [distanceTrigger_eq])
  rw [hholds, distanceTrigger_eq]

/-! ### The answer and the trigger together -/

/-- Two re-examinations of different holds. -/
theorem Owes.both {s u t : State} {p q : Stream → HeldWrite → Prop} (h : Owes s u p) (h' : Owes u t q)
    (hone : ∀ o w, p o w → ¬ q o { w with due := w.due + 1 }) : Owes s t fun o w => p o w ∨ q o w := by
  intro o
  refine ⟨fun hnone => (h' o).1 ((h o).1 hnone), fun w hw => ?_⟩
  obtain ⟨howed, hnot⟩ := (h o).2 w hw
  by_cases hp : p o w
  · have hu := howed hp
    exact ⟨fun _ => ((h' o).2 _ hu).2 (hone o w hp), fun hneither => absurd (.inl hp) hneither⟩
  · have hu := hnot hp
    exact ⟨fun heither => ((h' o).2 _ hu).1 (heither.resolve_left hp),
      fun hneither => ((h' o).2 _ hu).2 fun hq => hneither (.inr hq)⟩

theorem owes_oweSpace (s : State) : Owes s s.oweSpace fun _ w => w.kind = .space :=
  owes_of_map (f := fun _ w => w.kind = .space) (getV_owe s _) (by simp)

/-- Where no hold is picked, none changes. -/
theorem owes_nothing {s t : State} {p : Stream → HeldWrite → Prop} (hh : t.holds = s.holds) (hp : ∀ o w, ¬ p o w) :
    Owes s t p := by
  intro o
  rw [hh]
  exact ⟨id, fun w hw => ⟨fun h => absurd h (hp o w), fun _ => hw⟩⟩

/-- The end of a RESUME re-examines the QUIESCE holds; no other answer re-examines any (R67). -/
theorem owes_answeredBy (s : State) (answers : Option CheckpointRequest) :
    Owes s (s.answeredBy answers) fun _ w => w.kind = .quiesce ∧ answers = some .resume := by
  rcases answers with _ | _ | _ | _
  case some.resume => exact (owes_oweQuiesce _).imp rfl (by simp)
  all_goals exact owes_nothing rfl (by simp)

/-- The acknowledgement with its answer, whatever that is. -/
theorem checkpointAcknowledgement_leads {s : State} {e : MemEntry} {rest : List MemEntry} {f : Flight} (hlive : Live s)
    (haw : Awaits s e rest) (hpurpose : e.purpose = .anchorHalf true false) (hflight : s.ckpt.inFlight = some f)
    (hfirst : f.first = some .ok) (hanswers : Answerable s f.answers) : Leads .checkpointAcknowledgement s fun t =>
      t.out = Outputs.none
        ∧ Becomes t (((s.completing rest).flightLanded f).answeredBy f.answers).distanceTrigger := by
  have hhalf : s.firstHalf = some .ok := by simpa [State.firstHalf, frontIsRewrite_awaits haw hpurpose, hflight] using hfirst
  have hexec := exec_checkpointAcknowledgement hlive haw hpurpose hhalf
  rw [if_neg (by decide), checkpointOk_eq (s := s.completing rest) hflight hanswers] at hexec
  obtain ⟨hports, hout⟩ := answeredBy_keeps ((s.completing rest).flightLanded f) f.answers
  exact next_finish_quiet hlive hexec (by rw [distanceTrigger_eq]; exact hports) (by rw [distanceTrigger_eq]; exact hout)

/-- Settles O28: the checkpoint's effects, and the answer to the request it was made for. -/
theorem checkpointAcknowledgementMovesTheTail : Obligations.CheckpointAcknowledgementMovesTheTail := by
  unfold Obligations.CheckpointAcknowledgementMovesTheTail
  intro s e rest f hlive haw hpurpose hflight hfirst hanswers
  obtain ⟨t, hexec, hout, ht⟩ := checkpointAcknowledgement_leads hlive haw hpurpose hflight hfirst hanswers
  have hlanded : Owes s ((s.completing rest).flightLanded f) fun _ w => w.kind = .space := owes_oweSpace s
  have howes := hlanded.both (owes_answeredBy _ f.answers) fun o w hspace hquiesce => by simp [hspace] at hquiesce
  obtain ⟨-, -, -, -, -, -, -, -, hholds, hjournal, -, hckpt, -⟩ := ht.fields
  have hdistance : t.distanceHolds = _ := distanceHolds_congr hjournal (by rw [hckpt])
  refine ⟨t, hexec, hout, ?_, howes.congr (by rw [hholds]; simp), ?_⟩
  · rw [hdistance, hckpt, distanceTrigger_ckpt]
    rcases f.answers with _ | _ | _ | _
    all_goals rfl
  · rw [distanceTrigger_eq] at ht
    unfold Becomes at ht
    rw [ht]
    rcases f.answers with _ | _ | _ | _
    all_goals exact ⟨rfl, ⟨rfl, rfl, rfl⟩, rfl, rfl, rfl, ⟨rfl, rfl, rfl, rfl⟩, rfl, rfl, rfl, rfl⟩

end Sys2Proof.Machine
end

section
/-! CLEAR_FAULT is taken, and its anchor step ends it (O44). -/

namespace Sys2Proof.Machine

set_option Elab.async false

/-! ### The command and its first step (R165) -/

theorem exec_clearFault {s : State} (hlive : Live s) (hidle : s.mgmt.running = none) :
    exec .clearFault s = .next s.clearOut.clearFault.finish := by
  have hoffer : s.clearOut.offer State.clearFault = s.clearOut.clearFault := if_neg (by simp [State.clearOut, hidle])
  change happen s true (fun t => t.offer State.clearFault) = _
  rw [happen_next hlive.1 rfl, hoffer]

theorem clearable_iff (s : State) : s.clearable = true
    ↔ s.engine.state = .faulted ∧ s.engine.causes ≠ [] ∧ ∀ c ∈ s.engine.causes, c.onlineSide = true := by
  simp [State.clearable, and_assoc]

theorem journalStep_begins {s : State} (hrun : s.mgmt.running = some .clearFault) : JournalStepBegins s s.journalStep := by
  refine ⟨fun hcause => ?_, fun hcause => ⟨fun hleft => ?_, fun hfailed hout => ?_⟩⟩
  · have hstep : s.journalStep = s.applyStep := by simp [State.journalStep, hcause]
    rw [hstep]
    exact applyStep_begins hrun
  · have hdirty : s.journalClean = false := by
      rcases hleft with h | h <;> simp [State.journalClean, h]
    have hstep : s.journalStep = { s with engine := { s.engine with clear := some (.journal false) } } := by
      simp [State.journalStep, hcause, hdirty]
    rw [hstep]
    exact Becomes.refl _
  · have hclean : s.journalClean = true := by simp [State.journalClean, hfailed, hout]
    have hstep : s.journalStep = (s.dropCause .journalWrite).applyStep := by simp [State.journalStep, hcause, hclean]
    rw [hstep]
    exact applyStep_begins (s := s.dropCause .journalWrite) hrun

theorem JournalStepBegins.becomes {u v t : State} (h : JournalStepBegins u v) (ht : Becomes t v) : JournalStepBegins u t := by
  obtain ⟨hwithout, hwith⟩ := h
  refine ⟨fun hcause => (hwithout hcause).becomes ht, fun hcause => ?_⟩
  obtain ⟨hleft, hclean⟩ := hwith hcause
  exact ⟨fun h => ht.trans (hleft h), fun hfailed hout => (hclean hfailed hout).becomes ht⟩

/-- CLEAR_FAULT taken: it runs, and its first step begins in the same event. -/
theorem clearFault_begins {s : State} (hlive : Live s) (hidle : s.mgmt.running = none) (hclearable : s.clearable = true) :
    Leads .clearFault s fun t =>
      t.out = Outputs.none ∧ JournalStepBegins { s with mgmt := s.mgmt.runs .clearFault } t := by
  have htaken : s.clearOut.clearFault = (s.clearOut.takeRunning .clearFault).journalStep := if_pos hclearable
  have hexec := exec_clearFault hlive hidle
  rw [htaken] at hexec
  obtain ⟨t, hexec, hout, ht⟩ := next_finish_quiet hlive hexec (by simp) (by simp; rfl)
  have hbegins := (journalStep_begins (s := s.clearOut.takeRunning .clearFault) rfl).becomes ht
  exact ⟨t, hexec, hout, hbegins⟩

/-! ### The end of the anchor step (R133, R166) -/

/-- CLEAR_FAULT ends DONE: the records and the state entered, then the two tests. -/
theorem finishClear_eq {s : State} (answered : Option CheckpointRequest) (hrun : s.mgmt.running = some .clearFault) :
    s.finishClear answered = State.quiesceTest (State.distanceTrigger { s with
      engine := { s.engine with
        state := s.clearEnters answered, firstCause := none, causes := [], returnState := none, quiescePending := false
        activation := none, clear := none }
      profile := if answered = some .resume then s.engine.activation <|> s.profile else s.profile
      service := { s.service with
        recovery := if answered = some .recovery then { s.service.recovery with phase := none } else s.service.recovery }
      mgmt := s.clearedMgmt answered }) := by
  have hended (m : ManagementPort) (h : m.running = some .clearFault) : m.endsIf .clearFault .done = m.ended .clearFault .done :=
    endsIf_running _ h
  simp only [State.finishClear, clearTarget_eq, State.clearedMgmt, endIf_eq]
  rcases answered with _ | _ | _ | _
  all_goals split
  all_goals simp [State.pushEvent, State.activate, State.recoveryDone, hended, hrun]

theorem clearEnds_of_finishClear {s : State} (answered : Option CheckpointRequest) (hrun : s.mgmt.running = some .clearFault) :
    ClearEnds s (s.finishClear answered) answered := by
  rw [finishClear_eq answered hrun]
  refine ⟨(wantsAfter_tests _).of_ckpt rfl, ?_⟩
  apply becomes_of_fields <;> simp

/-- The retained anchor `r` has landed with its rewrite (R133); CLEAR_FAULT has still to end. -/
def State.rewriteLanded (s : State) (r : Retained) : State :=
  State.oweSpace { s with ckpt := { s.ckpt with
    durableTail := r.anchor.tail, number := r.anchor.number, lastCopy := some r.copy, retained := none, rewrite := none } }

theorem rewriteOk_own {s : State} {r : Retained} {w : Rewrite} (hretained : s.ckpt.retained = some r)
    (hrewrite : s.ckpt.rewrite = some w) (hown : w.own = true) :
    s.rewriteOk = ((s.rewriteLanded r).dropCause .checkpointWrite).finishClear r.answers := by
  simp only [State.rewriteOk, hretained, State.ownsAnchor, hrewrite, Option.any_some, hown, if_true]
  rfl

/-- The end of the anchor step of a CLEAR_FAULT that rewrites the retained anchor. -/
theorem rewriteAcknowledged_ends {s : State} {e : MemEntry} {rest : List MemEntry} {r : Retained} {w : Rewrite}
    (hlive : Live s) (haw : Awaits s e rest) (hpurpose : e.purpose = .anchorHalf true true)
    (hretained : s.ckpt.retained = some r) (hrewrite : s.ckpt.rewrite = some w) (hown : w.own = true)
    (hfirst : w.first = some .ok) (hrun : s.mgmt.running = some .clearFault) : Leads .checkpointAcknowledgement s fun t =>
      t.out = Outputs.none ∧ t.holds = ((s.completing rest).rewriteLanded r).holds
        ∧ ClearEnds (((s.completing rest).rewriteLanded r).dropCause .checkpointWrite) t r.answers := by
  have hhalf : s.firstHalf = some .ok := by simpa [State.firstHalf, frontIsRewrite_awaits haw hpurpose, hrewrite] using hfirst
  have hexec := exec_checkpointAcknowledgement hlive haw hpurpose hhalf
  rw [if_pos rfl, rewriteOk_own (s := s.completing rest) hretained hrewrite hown] at hexec
  obtain ⟨t, hexec, hout, ht⟩ := next_finish_quiet hlive hexec (by simp [State.rewriteLanded]; rfl)
    (by simp [State.rewriteLanded]; rfl)
  obtain ⟨-, -, -, -, -, -, -, -, hholds, -⟩ := ht.fields
  exact ⟨t, hexec, hout, hholds.trans (by simp), (clearEnds_of_finishClear _ (by exact hrun)).becomes ht⟩

/-- Settles O44: CLEAR_FAULT refused, its first step, and its end with the anchor step. -/
theorem clearFaultWorksThroughItsSteps : Obligations.ClearFaultWorksThroughItsSteps := by
  unfold Obligations.ClearFaultWorksThroughItsSteps
  refine ⟨fun s hlive hidle => ⟨fun hnot => ?_, fun hstate hsome honline => ?_⟩,
    fun s e rest r w hlive haw hpurpose hretained hrewrite hown hfirst hrun => ?_⟩
  · have hrefused : ¬ s.clearOut.clearable = true := fun h => by
      obtain ⟨hstate, hsome, honline⟩ := (clearable_iff s.clearOut).1 h
      rcases hnot with h | h | ⟨c, hc, h⟩
      · exact h hstate
      · exact hsome h
      · rw [honline c hc] at h; cases h
    exact ⟨_, exec_clearFault hlive hidle, answerAtOnce_quiet 4 .wrongState hlive (congrArg State.finish (if_neg hrefused))⟩
  · exact clearFault_begins hlive hidle ((clearable_iff s).2 ⟨hstate, hsome, honline⟩)
  · obtain ⟨t, hexec, hout, hholds, hends⟩ :=
      rewriteAcknowledged_ends hlive haw hpurpose hretained hrewrite hown hfirst hrun
    have howes : Owes s ((s.completing rest).rewriteLanded r) fun _ h => h.kind = .space := owes_oweSpace s
    refine ⟨t, hexec, hout, howes.congr hholds, ?_⟩
    rw [hholds]
    exact hends

end Sys2Proof.Machine
end

section
/-! Every anchor reads back from its two halves (O55). -/

namespace Sys2Proof.Machine

set_option Elab.async false

/-! ### The layout of an anchor (R186) -/

@[simp] theorem length_regionBytes (g : Region) : (regionBytes g).length = 8 := by simp [regionBytes]

@[simp] theorem length_streamBytes (e : StreamEntry) : (streamBytes e).length = 12 := by simp [streamBytes]

@[simp] theorem length_profileBytes (p : Profile) : (profileBytes p).length = 148 := by
  simp [profileBytes, List.length_flatMap]

@[simp] theorem length_anchorBody (a : Anchor) : (anchorBody a).length = 252 := by simp [anchorBody]

theorem length_anchorBytes (a : Anchor) : (anchorBytes a).length = 256 := by simp [anchorBytes]

/-- The two halves joined are the whole anchor (R131). -/
theorem anchorHalves (a : Anchor) : anchorHalf a false ++ anchorHalf a true = anchorBytes a := by
  have hsecond : anchorHalf a true = (anchorBytes a).drop 128 := List.take_of_length_le (by simp [length_anchorBytes, bit])
  rw [hsecond, anchorHalf_first, List.take_append_drop]

/-! ### Entries of a table of equal length, one after another -/

/-- The table from its entry `i` on. -/
theorem drop_flatMap {α : Type} {f : α → List Byte} {n : Nat} (hf : ∀ x, (f x).length = n) (l : List α) (i : Nat) :
    (l.flatMap f).drop (n * i) = (l.drop i).flatMap f := by
  induction i generalizing l with
  | zero => rfl
  | succ i ih =>
    cases l with
    | nil => simp
    | cons x l =>
      rw [List.flatMap_cons, Nat.mul_succ, Nat.add_comm, ← List.drop_drop, List.drop_left' (hf x), ih, List.drop_succ_cons]

/-- The table from its entry `i` on begins with that entry. -/
theorem drop_table {α : Type} {f : α → List Byte} {n : Nat} (hf : ∀ x, (f x).length = n) {l : List α} {i : Nat}
    (hi : i < l.length) (rest : List Byte) :
    (l.flatMap f ++ rest).drop (n * i) = f l[i] ++ ((l.drop (i + 1)).flatMap f ++ rest) := by
  have hfits : n * i ≤ (l.flatMap f).length := by
    have hlength : (l.flatMap f).length = n * l.length := by simp [List.length_flatMap, hf, Nat.mul_comm]
    rw [hlength]
    exact Nat.mul_le_mul_left n hi.le
  rw [List.drop_append_of_le_length hfits, drop_flatMap hf, List.drop_eq_getElem_cons hi, List.flatMap_cons, List.append_assoc]

/-! ### A region and a stream entry read back -/

theorem ofNat_mod {w : Nat} (x : BitVec w) {m : Nat} (h : 2 ^ w ≤ m) : BitVec.ofNat w (x.toNat % m) = x := by
  rw [Nat.mod_eq_of_lt (x.isLt.trans_le h), BitVec.ofNat_toNat, BitVec.setWidth_eq]

/-- A byte is a field of length one. -/
theorem getD_eq_field (b : List Byte) (o : Nat) : b.getD o 0 = BitVec.ofNat 8 (field b o 1) := by
  rw [List.getD_eq_getElem?_getD, ← List.head?_drop, field]
  cases b.drop o <;> simp [leNat]

theorem readRegion_regionBytes (g : Region) (rest : List Byte) : readRegion (regionBytes g ++ rest) = g := by
  have hbase : field (regionBytes g ++ rest) 0 5 = g.base.toNat % 256 ^ 5 := by
    simp only [regionBytes, List.append_assoc, field_front]
  have hsize : field (regionBytes g ++ rest) 5 1 = g.sizeExp.toNat % 256 ^ 1 := by
    simp [regionBytes, field_append_right, field_front]
  have henabled : field (regionBytes g ++ rest) 6 1 = bit g.enabled % 256 ^ 1 := by
    simp [regionBytes, field_append_right, field_front]
  have hmask : field (regionBytes g ++ rest) 7 1 = g.mask.toNat % 256 ^ 1 := by
    simp [regionBytes, field_append_right, field_front]
  have hbit : (BitVec.ofNat 8 (bit g.enabled % 256 ^ 1)).getLsbD 0 = g.enabled := by cases g.enabled <;> rfl
  simp only [readRegion, getD_eq_field, hbase, hsize, henabled, hmask, hbit]
  rw [ofNat_mod _ (by norm_num), ofNat_mod _ (by norm_num), ofNat_mod _ (by norm_num)]

theorem readStream_streamBytes (e : StreamEntry) (rest : List Byte) : readStream (streamBytes e ++ rest) = e := by
  have hcommit : field (streamBytes e ++ rest) 0 5 = e.commitWord.toNat % 256 ^ 5 := by
    simp only [streamBytes, List.append_assoc, field_front]
  have hcancel : field (streamBytes e ++ rest) 5 5 = e.cancelWord.toNat % 256 ^ 5 := by
    simp [streamBytes, field_append_right, field_front]
  have hflags : field (streamBytes e ++ rest) 10 1 = (bit e.enabled + 2 * bit e.cancelPresent) % 256 ^ 1 := by
    simp [streamBytes, field_append_right, field_front]
  have hlimit : field (streamBytes e ++ rest) 11 1 = e.entryLimit.toNat % 256 ^ 1 := by
    simp [streamBytes, field_append_right, field_front]
  have henabled : (BitVec.ofNat 8 ((bit e.enabled + 2 * bit e.cancelPresent) % 256 ^ 1)).getLsbD 0 = e.enabled := by
    cases e.enabled <;> cases e.cancelPresent <;> rfl
  have hpresent : (BitVec.ofNat 8 ((bit e.enabled + 2 * bit e.cancelPresent) % 256 ^ 1)).getLsbD 1 = e.cancelPresent := by
    cases e.enabled <;> cases e.cancelPresent <;> rfl
  simp only [readStream, getD_eq_field, hcommit, hcancel, hflags, hlimit, henabled, hpresent]
  rw [ofNat_mod _ (by norm_num), ofNat_mod _ (by norm_num), ofNat_mod _ (by norm_num)]

/-! ### The tables read back -/

/-- The fields before the profile (R186). -/
def anchorHead (a : Anchor) : List Byte :=
  leBytes 4 0x6A7A1C38 ++ (leBytes 4 1 ++ (leBytes 4 a.stamp.toNat ++ (leBytes 1 a.code.toNat ++ (zeros 3
    ++ (leBytes 4 a.number.toNat ++ (leBytes 4 a.tail.toNat ++ (leBytes 4 a.through.toNat
    ++ (leBytes 4 a.nextGroup.toNat ++ (leBytes 4 a.nextCommit.toNat ++ zeros 4)))))))))

/-- The fields of the profile before its tables (R186). -/
def profileHead (p : Profile) : List Byte := leBytes 2 p.holdLimit.toNat ++ (leBytes 1 p.openReserve.toNat ++ zeros 1)

/-- What follows the profile's tables: 64 bytes of zero and the CRC (R186). -/
def anchorEnd (a : Anchor) : List Byte := zeros 64 ++ leBytes 4 (crc32 (anchorBody a)).toNat

theorem anchorBytes_parts (a : Anchor) : anchorBytes a = anchorHead a ++ (profileHead a.profile
    ++ (a.profile.regions.toList.flatMap regionBytes ++ (a.profile.streams.toList.flatMap streamBytes ++ anchorEnd a))) := by
  simp only [anchorBytes, anchorBody, profileBytes, anchorHead, profileHead, anchorEnd, List.append_assoc]

@[simp] theorem length_anchorHead (a : Anchor) : (anchorHead a).length = 40 := by simp [anchorHead]

@[simp] theorem length_profileHead (p : Profile) : (profileHead p).length = 4 := by simp [profileHead]

theorem readRegion_anchorBytes (a : Anchor) (i : Fin 6) :
    readRegion ((anchorBytes a).drop (44 + 8 * i.val)) = getV a.profile.regions i := by
  have hhead : (anchorHead a ++ profileHead a.profile).length = 44 := by simp
  have hi : i.val < a.profile.regions.toList.length := by simp
  rw [anchorBytes_parts, ← List.append_assoc, ← List.drop_drop, List.drop_left' hhead, drop_table length_regionBytes hi,
    readRegion_regionBytes]
  rfl

theorem readStream_anchorBytes (a : Anchor) (j : Fin 8) :
    readStream ((anchorBytes a).drop (92 + 12 * j.val)) = getV a.profile.streams j := by
  have hhead : (anchorHead a ++ (profileHead a.profile ++ a.profile.regions.toList.flatMap regionBytes)).length = 92 := by
    simp [List.length_flatMap]
  have hj : j.val < a.profile.streams.toList.length := by simp
  rw [anchorBytes_parts, ← List.append_assoc, ← List.append_assoc, List.append_assoc (anchorHead a), ← List.drop_drop,
    List.drop_left' hhead, drop_table length_streamBytes hj, readStream_streamBytes]
  rfl

theorem readRegions_anchorBytes (a : Anchor) : readRegions (anchorBytes a) = a.profile.regions := by
  refine tables_ext _ _ fun i => ?_
  rw [← readRegion_anchorBytes a i]
  match i with
  | 0 | 1 | 2 | 3 | 4 | 5 => rfl

theorem readStreams_anchorBytes (a : Anchor) : readStreams (anchorBytes a) = a.profile.streams := by
  refine tables_ext _ _ fun j => ?_
  rw [← readStream_anchorBytes a j]
  match j with
  | 0 | 1 | 2 | 3 | 4 | 5 | 6 | 7 => rfl

/-! ### The numbers read back -/

/-- A field before the profile. -/
theorem field_anchorHead (a : Anchor) {o n : Nat} (h : o + n ≤ 40) : field (anchorBytes a) o n = field (anchorHead a) o n := by
  rw [anchorBytes_parts, field_append_left (by simpa using h)]

theorem magic_anchorBytes (a : Anchor) : field (anchorBytes a) 0 4 = 0x6A7A1C38 ∧ field (anchorBytes a) 4 4 = 1 := by
  rw [field_anchorHead a (by omega), field_anchorHead a (by omega)]
  simp [anchorHead, field_append_right, field_front]

/-- The words before the profile. -/
theorem words_anchorBytes (a : Anchor) : field (anchorBytes a) 8 4 = a.stamp.toNat ∧ field (anchorBytes a) 16 4 = a.number.toNat
    ∧ field (anchorBytes a) 20 4 = a.tail.toNat ∧ field (anchorBytes a) 24 4 = a.through.toNat
    ∧ field (anchorBytes a) 28 4 = a.nextGroup.toNat ∧ field (anchorBytes a) 32 4 = a.nextCommit.toNat := by
  refine ⟨?_, ?_, ?_, ?_, ?_, ?_⟩
  all_goals
    rw [field_anchorHead a (by omega)]
    simp [anchorHead, field_append_right, field_front_word]

theorem code_anchorBytes (a : Anchor) : field (anchorBytes a) 12 1 = a.code.toNat % 256 ^ 1 := by
  rw [field_anchorHead a (by omega)]
  simp [anchorHead, field_append_right, field_front]

theorem profileHead_anchorBytes (a : Anchor) : field (anchorBytes a) 40 2 = a.profile.holdLimit.toNat % 256 ^ 2
    ∧ field (anchorBytes a) 42 1 = a.profile.openReserve.toNat % 256 ^ 1 := by
  rw [anchorBytes_parts]
  simp [field_append_right, profileHead, field_front]

/-- The CRC at the end is that of the 252 bytes before it (R103, R150). -/
theorem crc_anchorBytes (a : Anchor) : field (anchorBytes a) 252 4 = (crc32 ((anchorBytes a).take 252)).toNat := by
  rw [anchorBytes, List.take_left' (length_anchorBody a), field_append_right (by simp), length_anchorBody, Nat.sub_self, field_word]

theorem readAnchor_anchorBytes {a : Anchor} (hstamp : a.stamp ≠ 0) : readAnchor (anchorBytes a) = some a := by
  obtain ⟨hmagic, hversion⟩ := magic_anchorBytes a
  obtain ⟨hstampField, hnumber, htail, hthrough, hgroup, hcommit⟩ := words_anchorBytes a
  obtain ⟨hhold, hreserve⟩ := profileHead_anchorBytes a
  have hnonzero : a.stamp.toNat ≠ 0 := fun h => hstamp (BitVec.eq_of_toNat_eq h)
  have hcode : BitVec.ofNat 8 (a.code.toNat % 256 ^ 1) = a.code := ofNat_mod _ (by norm_num)
  have hlimit : BitVec.ofNat 16 (a.profile.holdLimit.toNat % 256 ^ 2) = a.profile.holdLimit := ofNat_mod _ (by norm_num)
  have hopen : BitVec.ofNat 8 (a.profile.openReserve.toNat % 256 ^ 1) = a.profile.openReserve := ofNat_mod _ (by norm_num)
  have hvalid : (field (anchorBytes a) 0 4 = 0x6A7A1C38 && field (anchorBytes a) 4 4 = 1 && field (anchorBytes a) 8 4 ≠ 0
      && field (anchorBytes a) 252 4 = (crc32 ((anchorBytes a).take 252)).toNat) = true := by
    simp [hmagic, hversion, hstampField, hnonzero, crc_anchorBytes a]
  rw [readAnchor, if_pos hvalid]
  simp only [getD_eq_field, code_anchorBytes, hstampField, hnumber, htail, hthrough, hgroup, hcommit, hhold, hreserve,
    readRegions_anchorBytes, readStreams_anchorBytes, hcode, hlimit, hopen, BitVec.ofNat_toNat, BitVec.setWidth_eq]

/-- Settles O55: the length of an anchor, and its two halves read back. -/
theorem anchorsReadBack : Obligations.AnchorsReadBack := by
  unfold Obligations.AnchorsReadBack
  intro a hstamp
  exact ⟨length_anchorBytes a, by rw [anchorHalves, readAnchor_anchorBytes hstamp]⟩

end Sys2Proof.Machine
end

section
/-! The other grants of the Service Engine, and what recovery, FORMAT and DIGEST present (O22). -/

namespace Sys2Proof.Machine

set_option Elab.async false

/-! ### The requests (R131, R133, R152, R172) -/

theorem anchorWrite_eq (s : State) (c : Copy) (a : Anchor) (second : Bool) : s.anchorWrite c a second = s.halfWrite c a second := by
  cases c <;> cases second <;> rfl

theorem recordRead_eq {s : State} {f : Format} (hformat : s.journal.format = some f) (seq : Word) :
    s.recordRead seq = s.recordReadAt f seq := by
  rw [State.recordRead, hformat]
  rfl

theorem ringSize_eq {s : State} {f : Format} (hformat : s.journal.format = some f) : s.ringSize = 1024 * 2 ^ f.code.toNat := by
  rw [State.ringSize, hformat]
  rfl

theorem homeWriteOf_eq {s : State} {id : SlotId} {x : Slot} (hx : s.slot id = some x) : s.homeWriteOf id = homeWrite x := by
  rw [State.homeWriteOf, hx, Option.getD_some]

/-! ### The event of a grant (R138, R139) -/

/-- The work whose request is issued leaves the order in which the works became ready (R138). -/
def State.unlisted (s : State) (w : ServiceWork) : State :=
  { s with service := { s.service with readyOrder := s.service.readyOrder.erase w } }

/-- SERVICE_REQUEST_GRANT issues the ready request of the work that is presented. -/
theorem serviceRequestGrant_leads {s u : State} {w : ServiceWork} {byRotation : Bool} {P : State → Prop} (hlive : Live s)
    (hgrant : Granted s .serviceEngine byRotation) (hwork : s.presentedWork = some w)
    (hother : w = .checkpoint → s.checkpointTurn ≠ some .first)
    (hu : (s.pointed .serviceEngine byRotation).issueWork w = u) (hports : u.ports = s.ports)
    (hP : ∀ t, Becomes t u → t.out = u.out → P t) : Leads .serviceRequestGrant s P := by
  have hnot : s.presentsCheckpoint = false := by
    rw [State.presentsCheckpoint, hwork, Bool.and_eq_false_iff]
    by_cases h : w = .checkpoint
    · exact .inr (decide_eq_false (hother h))
    · exact .inl (decide_eq_false fun hsome => h (Option.some.inj hsome))
  have hissued : s.clearOut.grant = u := by
    have hwork' : (s.pointed .serviceEngine byRotation).presentedWork = some w := hwork
    rw [grant_of_granted hgrant, State.grantTo, hwork', Option.elim_some, hu]
  exact leads_quiet (f := State.grant) rfl hlive.1 (by simp [chosen_of_granted hgrant, hnot]) hissued
    (noReadyFront_of_ports hlive.2 hports) hP

/-! ### The halves of anchors (R131, R133) -/

theorem checkpointTurn_second {s : State} {f : Flight} (hflight : s.ckpt.inFlight = some f) (hfirst : f.secondGranted = false) :
    s.checkpointTurn = some .second := by
  simp [State.checkpointTurn, hflight, hfirst]

theorem checkpointTurn_rewriteFirst {s : State} {a : Retained} (hflight : s.ckpt.inFlight = none)
    (hretained : s.ckpt.retained = some a) (hrewrite : s.ckpt.rewrite = none) (hclear : s.engine.clear = some .anchor) :
    s.checkpointTurn = some .rewriteFirst := by
  simp [State.checkpointTurn, hflight, hretained, hrewrite, hclear]

theorem checkpointTurn_rewriteSecond {s : State} {a : Retained} {w : Rewrite} (hflight : s.ckpt.inFlight = none)
    (hretained : s.ckpt.retained = some a) (hrewrite : s.ckpt.rewrite = some w) (hown : w.own = true)
    (hfirst : w.secondGranted = false) : s.checkpointTurn = some .rewriteSecond := by
  simp [State.checkpointTurn, hflight, hretained, hrewrite, hown, hfirst]

theorem issueWork_checkpoint {s : State} {turn : CheckpointTurn} (h : s.checkpointTurn = some turn) :
    s.issueWork .checkpoint = (s.unlisted .checkpoint).issueTurn turn := by
  rw [State.issueWork, h, Option.elim_some]
  rfl

theorem secondHalf_leads {s : State} {f : Flight} {byRotation : Bool} (hlive : Live s)
    (hgrant : Granted s .serviceEngine byRotation) (hwork : s.presentedWork = some .checkpoint)
    (hflight : s.ckpt.inFlight = some f) (hfirst : f.secondGranted = false) : Leads .serviceRequestGrant s fun t =>
      let r := s.halfWrite f.copy f.anchor true
      t.out = onlyIssue r ∧ Becomes t { s.granted (.anchorHalf true false) r byRotation with
        ckpt := { s.ckpt with inFlight := some { f with secondGranted := true } } } := by
  have hturn := checkpointTurn_second hflight hfirst
  have hissued := issueWork_checkpoint (s := s.pointed .serviceEngine byRotation) hturn
  have hflight' : ((s.pointed .serviceEngine byRotation).unlisted .checkpoint).ckpt.inFlight = some f := hflight
  simp only [State.issueTurn, State.issueSecondHalf, hflight', anchorWrite_eq] at hissued
  exact serviceRequestGrant_leads hlive hgrant hwork (fun _ => by simp [hturn]) hissued rfl fun t ht hout => ⟨hout, ht⟩

/-- A half of the rewrite of the retained anchor. -/
theorem rewriteHalf_leads {s : State} {a : Retained} {turn : CheckpointTurn} {second byRotation : Bool} (hlive : Live s)
    (hgrant : Granted s .serviceEngine byRotation) (hwork : s.presentedWork = some .checkpoint)
    (hretained : s.ckpt.retained = some a) (hturn : s.checkpointTurn = some turn)
    (hhalf : turn = if second then .rewriteSecond else .rewriteFirst) : Leads .serviceRequestGrant s fun t =>
      let r := s.halfWrite a.copy a.anchor second
      t.out = onlyIssue r ∧ Becomes t { s.granted (.anchorHalf second true) r byRotation with
        ckpt := { s.ckpt with
          rewrite := some { first := s.ckpt.rewrite.bind (·.first), secondGranted := second, own := true } } } := by
  have hissued := issueWork_checkpoint (s := s.pointed .serviceEngine byRotation) hturn
  have hretained' : ((s.pointed .serviceEngine byRotation).unlisted .checkpoint).ckpt.retained = some a := hretained
  have hturnHalf (u : State) : u.issueTurn turn = u.issueRewriteHalf second := by
    rw [hhalf]
    cases second <;> rfl
  simp only [hturnHalf, State.issueRewriteHalf, hretained', anchorWrite_eq] at hissued
  exact serviceRequestGrant_leads hlive hgrant hwork (fun _ => by rw [hturn, hhalf]; cases second <;> simp) hissued rfl
    fun t ht hout => ⟨hout, ht⟩

/-! ### Recovery, FORMAT and DIGEST -/

theorem issueRecovery_read (s : State) {p : Purpose} (r : MemRequest) (hread : p ≠ .replayWrite) :
    s.issueRecovery (p, r) = s.issue p r := by
  cases p
  case replayWrite => exact absurd rfl hread
  all_goals rfl

theorem issueRecovery_write {s : State} {q : Replay} (r : MemRequest) (hreplay : s.service.replay = some q) :
    s.issueRecovery (.replayWrite, r) = { s.issue .replayWrite r with
      service := { s.service with replay := some { q with nextPos := q.nextPos + 1 } } } := by
  have hreplay' : (s.issue .replayWrite r).service.replay = some q := hreplay
  simp only [State.issueRecovery, hreplay', Option.map_some]
  rfl

theorem issueWork_recovery {s : State} {x : Purpose × MemRequest} (h : s.recoveryRequest = some x) :
    s.issueWork .recovery = (s.unlisted .recovery).issueRecovery x := by
  rw [State.issueWork, h, Option.elim_some]
  rfl

theorem recoveryReadGrant_leads {s : State} {p : Purpose} {r : MemRequest} {byRotation : Bool} (hlive : Live s)
    (hgrant : Granted s .serviceEngine byRotation) (hwork : s.presentedWork = some .recovery)
    (hrequest : s.recoveryRequest = some (p, r)) (hread : p ≠ .replayWrite) : Leads .serviceRequestGrant s fun t =>
      t.out = onlyIssue r ∧ Becomes t (s.granted p r byRotation) := by
  have hissued := issueWork_recovery (s := s.pointed .serviceEngine byRotation) hrequest
  rw [issueRecovery_read _ r hread] at hissued
  exact serviceRequestGrant_leads hlive hgrant hwork (by simp) hissued rfl fun t ht hout => ⟨hout, ht⟩

theorem replayWriteGrant_leads {s : State} {q : Replay} {r : MemRequest} {byRotation : Bool} (hlive : Live s)
    (hgrant : Granted s .serviceEngine byRotation) (hwork : s.presentedWork = some .recovery)
    (hrequest : s.recoveryRequest = some (.replayWrite, r)) (hreplay : s.service.replay = some q) :
    Leads .serviceRequestGrant s fun t => t.out = onlyIssue r ∧ Becomes t { s.granted .replayWrite r byRotation with
      service := { s.service with replay := some { q with nextPos := q.nextPos + 1 } } } := by
  have hissued := issueWork_recovery (s := s.pointed .serviceEngine byRotation) hrequest
  rw [issueRecovery_write r (by exact hreplay)] at hissued
  exact serviceRequestGrant_leads hlive hgrant hwork (by simp) hissued rfl fun t ht hout => ⟨hout, ht⟩

theorem issueFormat_eq {s : State} {w : FormatWork} (x : Purpose × MemRequest) (h : s.service.format = some w) :
    s.issueFormat x = { s.issue x.1 x.2 with
      service := { s.service with format := some { w with granted := w.granted + 1 } } } := by
  have h' : (s.issue x.1 x.2).service.format = some w := h
  simp only [State.issueFormat, h', Option.map_some]
  rfl

theorem issueWork_format {s : State} {x : Purpose × MemRequest} (h : s.formatRequest = some x) :
    s.issueWork .format = (s.unlisted .format).issueFormat x := by
  rw [State.issueWork, h, Option.elim_some]
  rfl

theorem formatGrant_leads {s : State} {w : FormatWork} {p : Purpose} {r : MemRequest} {byRotation : Bool} (hlive : Live s)
    (hgrant : Granted s .serviceEngine byRotation) (hwork : s.presentedWork = some .format) (hformat : s.service.format = some w)
    (hrequest : s.formatRequest = some (p, r)) : Leads .serviceRequestGrant s fun t =>
      t.out = onlyIssue r ∧ Becomes t { s.granted p r byRotation with
        service := { s.service with format := some { w with granted := w.granted + 1 } } } := by
  have hissued := issueWork_format (s := s.pointed .serviceEngine byRotation) hrequest
  rw [issueFormat_eq _ (by exact hformat)] at hissued
  exact serviceRequestGrant_leads hlive hgrant hwork (by simp) hissued rfl fun t ht hout => ⟨hout, ht⟩

theorem digestRequest_eq {s : State} {d : DigestRecord} (hdigest : s.service.digest = some d) : s.digestRequest
    = if d.next < d.stop ∧ s.liveCount Purpose.isDigestRead < 8 then some (.digestRead,
        { addr := BitVec.ofNat 36 d.next, op := .read (digestStop d.next d.stop - d.next) }) else none := by
  simp only [State.digestRequest, hdigest, Bool.and_eq_true, decide_eq_true_eq]

theorem issueDigest_eq {s : State} {d : DigestRecord} (x : Purpose × MemRequest) (h : s.service.digest = some d) :
    s.issueDigest x = { s.issue x.1 x.2 with
      service := { s.service with digest := some { d with next := digestStop d.next d.stop } } } := by
  have h' : (s.issue x.1 x.2).service.digest = some d := h
  simp only [State.issueDigest, h', Option.map_some]
  rfl

theorem issueWork_digest {s : State} {x : Purpose × MemRequest} (h : s.digestRequest = some x) :
    s.issueWork .digest = (s.unlisted .digest).issueDigest x := by
  rw [State.issueWork, h, Option.elim_some]
  rfl

theorem digestGrant_leads {s : State} {d : DigestRecord} {byRotation : Bool} (hlive : Live s)
    (hgrant : Granted s .serviceEngine byRotation) (hwork : s.presentedWork = some .digest) (hdigest : s.service.digest = some d)
    (hmore : d.next < d.stop) (hroom : s.liveCount Purpose.isDigestRead < 8) : Leads .serviceRequestGrant s fun t =>
      let stop := min (d.next / 128 * 128 + 128) d.stop
      let r : MemRequest := { addr := BitVec.ofNat 36 d.next, op := .read (stop - d.next) }
      t.out = onlyIssue r ∧ Becomes t { s.granted .digestRead r byRotation with
        service := { s.service with digest := some { d with next := stop } } } := by
  have hrequest := (digestRequest_eq (s := s.pointed .serviceEngine byRotation) hdigest).trans (if_pos ⟨hmore, hroom⟩)
  have hissued := issueWork_digest hrequest
  rw [issueDigest_eq _ (by exact hdigest)] at hissued
  exact serviceRequestGrant_leads hlive hgrant hwork (by simp) hissued rfl fun t ht hout => ⟨hout, ht⟩

/-! ### What recovery presents (R144, R149, R152 to R155) -/

theorem readRoom_iff (s : State) : s.readRoom = true ↔ s.outstandingOf .serviceEngine < 8 := decide_eq_true_iff

theorem recoveryRequest_none {s : State} (h : s.mem.draining = true ∨ s.engine.state ≠ .recovering) :
    s.recoveryRequest = none := by
  unfold State.recoveryRequest
  exact if_neg (by rcases h with h | h <;> simp [h])

/-- A read of recovery is presented inside its range and while there is room, and not otherwise. -/
theorem guarded_presents {α : Type} {n m : Nat} {room : Bool} {Room : Prop} (hroom : room = true ↔ Room) (x : α) :
    (n < m → Room → (if n < m && room then some x else none) = some x)
      ∧ (m ≤ n ∨ ¬ Room → (if n < m && room then some x else none) = none) := by
  refine ⟨fun hless hhas => if_pos (by simp [hless, hroom.2 hhas]), fun hno => if_neg fun h => ?_⟩
  simp only [Bool.and_eq_true, decide_eq_true_eq] at h
  obtain ⟨hless, hyes⟩ := h
  rcases hno with hno | hno
  · exact absurd hless (Nat.not_lt.2 hno)
  · exact hno (hroom.1 hyes)

section
variable {s : State} (hdrain : s.mem.draining = false) (hstate : s.engine.state = .recovering)
include hdrain hstate

theorem recoveryRequest_anchors (hphase : s.service.recovery.phase = some .anchors) :
    s.recoveryRequest = s.anchorReadRequest := by
  simp [State.recoveryRequest, hdrain, hstate, hphase]

theorem recoveryRequest_scan (hphase : s.service.recovery.phase = some .scan) : s.recoveryRequest = s.scanReadRequest := by
  simp [State.recoveryRequest, hdrain, hstate, hphase]

theorem recoveryRequest_walking (hphase : s.service.recovery.phase = some .replay) (hreplay : s.service.replay = none) :
    s.recoveryRequest = s.walkReadRequest := by
  simp [State.recoveryRequest, hdrain, hstate, hphase, hreplay]

theorem recoveryRequest_replaying {p : Replay} (hphase : s.service.recovery.phase = some .replay)
    (hreplay : s.service.replay = some p) : s.recoveryRequest = s.replayRequest p := by
  simp [State.recoveryRequest, hdrain, hstate, hphase, hreplay]

theorem recoveryRequest_closing (hphase : s.service.recovery.phase = some .close ∨ s.service.recovery.phase = none) :
    s.recoveryRequest = none := by
  rcases hphase with h | h <;> simp [State.recoveryRequest, hdrain, hstate, h]

end

theorem anchorReadRequest_eq (s : State) : s.anchorReadRequest
    = if s.service.recovery.anchorReads.length + s.liveCount Purpose.isAnchorRead < 4 then some (.anchorRead,
        { addr := BitVec.ofNat 36 (journalBase s.abase
            + 128 * (s.service.recovery.anchorReads.length + s.liveCount Purpose.isAnchorRead)), op := .read 128 })
      else none := rfl

theorem scanReadRequest_eq {s : State} {f : Format} (hformat : s.journal.format = some f) {seq : Word}
    (hseq : seq = s.service.recovery.cursor + BitVec.ofNat 32 (s.liveCount Purpose.isScanRead)) : s.scanReadRequest
      = if (seq - s.service.recovery.tail).toNat < 1024 * 2 ^ f.code.toNat && s.readRoom then
          some (.scanRead seq, s.recordReadAt f seq) else none := by
  rw [← ringSize_eq hformat, ← recordRead_eq hformat, hseq]
  rfl

theorem walkReadRequest_eq {s : State} {f : Format} {h : Word} (hformat : s.journal.format = some f)
    (hhead : s.service.recovery.scannedHead = some h) {seq : Word}
    (hseq : seq = s.service.recovery.cursor + BitVec.ofNat 32 (s.liveCount Purpose.isWalkRead)) : s.walkReadRequest
      = if (seq - s.service.recovery.tail).toNat < (h - s.service.recovery.tail).toNat && s.readRoom then
          some (.walkRead seq, s.recordReadAt f seq) else none := by
  rw [← recordRead_eq hformat, hseq, State.walkReadRequest, hhead]
  rfl

theorem replayRequest_collecting {s : State} {f : Format} {p : Replay} (hformat : s.journal.format = some f)
    (hwriting : p.writing = false) {seq : Word}
    (hseq : seq = p.cursor + BitVec.ofNat 32 (s.liveCount Purpose.isCollectRead)) : s.replayRequest p
      = if (seq - s.service.recovery.tail).toNat < (p.seq - s.service.recovery.tail).toNat && s.readRoom then
          some (.collectRead seq, s.recordReadAt f seq) else none := by
  rw [← recordRead_eq hformat, hseq, State.replayRequest, hwriting]
  rfl

theorem replayRequest_writing {s : State} {p : Replay} {g : Group} (hwriting : p.writing = true)
    (hg : s.groups.replaying = some g) : s.replayRequest p = (g.entries[p.nextPos]?).bind fun id =>
      if s.liveCount Purpose.isReplayWrite < 4 then some (.replayWrite, s.homeWriteOf id) else none := by
  simp only [State.replayRequest, hwriting, hg, if_true, Option.elim_some]
  cases g.entries[p.nextPos]? <;> rfl

/-! ### What FORMAT presents (R172) -/

theorem formatRequest_eq {s : State} {w : FormatWork} (hformat : s.service.format = some w) : s.formatRequest
    = if w.checked = true ∧ s.mem.path = [] ∧ w.granted < 4 ∧ (w.granted < 2 ∨ 2 ≤ w.acked) then
        some (.formatWrite, s.anchorWrite (formatHalf w.granted).1 (s.formatAnchor w (formatHalf w.granted).1)
          (formatHalf w.granted).2)
      else none := by
  simp only [State.formatRequest, hformat, Bool.and_eq_true, Bool.or_eq_true, decide_eq_true_eq, List.isEmpty_iff, and_assoc]
  rfl

/-- B lower, B upper, A lower, A upper. -/
theorem formatHalf_eq {n : Nat} (h : n < 4) : formatHalf n = (if n < 2 then Copy.b else Copy.a, decide (n % 2 = 1)) := by
  interval_cases n <;> rfl

theorem formatAnchor_eq {s : State} {pr : Profile} (hprofile : s.engine.activation = some pr) (w : FormatWork) (c : Copy) :
    s.formatAnchor w c = { stamp := w.stamp, code := w.code, number := if c = .b then 1 else 2, tail := 0, through := 0,
                           nextGroup := 1, nextCommit := 1, profile := pr } := by
  cases c <;> simp [State.formatAnchor, hprofile]

theorem formatRequest_writes {s : State} {w : FormatWork} {pr : Profile} (hformat : s.service.format = some w)
    (hprofile : s.engine.activation = some pr) (hchecked : w.checked = true) (hpath : s.mem.path = []) (hmore : w.granted < 4)
    (hacked : 2 ≤ w.granted → 2 ≤ w.acked) :
    let a : Anchor := { stamp := w.stamp, code := w.code, number := if w.granted < 2 then 1 else 2, tail := 0
                        through := 0, nextGroup := 1, nextCommit := 1, profile := pr }
    s.formatRequest = some (.formatWrite, s.halfWrite (if w.granted < 2 then .b else .a) a (w.granted % 2 = 1)) := by
  have hhalf : w.granted < 2 ∨ 2 ≤ w.acked := (Nat.lt_or_ge w.granted 2).imp_right hacked
  refine ((formatRequest_eq hformat).trans (if_pos ⟨hchecked, hpath, hmore, hhalf⟩)).trans ?_
  rw [anchorWrite_eq, formatHalf_eq hmore, formatAnchor_eq hprofile]
  by_cases hb : w.granted < 2 <;> simp [hb]

theorem formatRequest_waits {s : State} {w : FormatWork} (hformat : s.service.format = some w)
    (h : w.checked = false ∨ s.mem.path ≠ [] ∨ 4 ≤ w.granted ∨ 2 ≤ w.granted ∧ w.acked < 2) :
    s.formatRequest = none := by
  rw [formatRequest_eq hformat]
  refine if_neg ?_
  rintro ⟨hchecked, hpath, hmore, hhalf⟩
  rcases h with h | h | h | ⟨h, h'⟩
  · rw [hchecked] at h; cases h
  · exact h hpath
  · omega
  · omega

/-- Settles O22: the grants of the Service Engine, and what recovery, FORMAT and DIGEST present. -/
theorem serviceEngineGrants : Obligations.ServiceEngineGrants := by
  unfold Obligations.ServiceEngineGrants
  refine ⟨fun s byRotation hlive hgrant => ⟨fun f hwork hflight hfirst => ?_, fun a hwork hflight hretained => ⟨?_, ?_⟩,
      fun p r hwork hrequest => ⟨?_, ?_⟩, fun w p r hwork hformat hrequest => ?_, fun d hwork hdigest hmore hroom => ?_⟩,
    fun s hdrain hstate => ⟨fun hphase i hi => ?_, fun f seq hphase hformat hseq => ?_,
      fun f h seq hphase hformat hreplay hhead hseq => ?_, fun f p seq hphase hformat hreplay hwriting hseq => ?_,
      fun p g hphase hreplay hwriting hg => ⟨fun id x hid hx hroom => ?_, fun hno => ?_⟩, ?_⟩,
    fun s => recoveryRequest_none, fun s w hformat => ⟨fun pr => formatRequest_writes hformat, formatRequest_waits hformat⟩,
    fun s d hdigest hno => ?_⟩
  · exact secondHalf_leads hlive hgrant hwork hflight hfirst
  · intro hrewrite hclear
    have hturn := checkpointTurn_rewriteFirst hflight hretained hrewrite hclear
    have hgranted := rewriteHalf_leads (second := false) hlive hgrant hwork hretained hturn rfl
    rw [hrewrite] at hgranted
    exact hgranted
  · rintro ⟨first, granted, own⟩ hrewrite rfl hfirst
    have hturn := checkpointTurn_rewriteSecond hflight hretained hrewrite rfl hfirst
    have hgranted := rewriteHalf_leads (second := true) hlive hgrant hwork hretained hturn rfl
    rw [hrewrite] at hgranted
    exact hgranted
  · exact recoveryReadGrant_leads hlive hgrant hwork hrequest
  · rintro q rfl hreplay
    exact replayWriteGrant_leads hlive hgrant hwork hrequest hreplay
  · exact formatGrant_leads hlive hgrant hwork hformat hrequest
  · exact digestGrant_leads hlive hgrant hwork hdigest hmore hroom
  · rw [recoveryRequest_anchors hdrain hstate hphase, anchorReadRequest_eq, ← hi]
    exact ⟨fun hmore => if_pos hmore, fun hdone => if_neg (Nat.not_lt.2 hdone)⟩
  · rw [recoveryRequest_scan hdrain hstate hphase, scanReadRequest_eq hformat hseq]
    exact guarded_presents (readRoom_iff s) _
  · rw [recoveryRequest_walking hdrain hstate hphase hreplay, walkReadRequest_eq hformat hhead hseq]
    exact guarded_presents (readRoom_iff s) _
  · rw [recoveryRequest_replaying hdrain hstate hphase hreplay, replayRequest_collecting hformat hwriting hseq]
    exact guarded_presents (readRoom_iff s) _
  · rw [recoveryRequest_replaying hdrain hstate hphase hreplay, replayRequest_writing hwriting hg, hid, Option.bind_some,
      if_pos hroom, homeWriteOf_eq hx]
    rfl
  · rw [recoveryRequest_replaying hdrain hstate hphase hreplay, replayRequest_writing hwriting hg]
    rcases hno with hdone | hfull
    · rw [List.getElem?_eq_none hdone, Option.bind_none]
    · simp only [if_neg (Nat.not_lt.2 hfull), Option.bind_fun_none]
  · exact recoveryRequest_closing hdrain hstate
  · rw [digestRequest_eq hdigest]
    exact if_neg fun h => by omega

end Sys2Proof.Machine
end

section
/-! Every command answers a next state, but for data the memory side never sends; pins, timebase and queue stay (O4). -/

namespace Sys2Proof.Machine

/-! ### The pins, the timebase and the queue under an operation -/

/-- An operation whose frame (`State.…_keeps`) holds the pins, the timebase and the queue. -/
theorem SamePins.of_keeps {s t : State} (hrun : t.run = s.run := by simp) (habase : t.abase = s.abase := by simp)
    (hnow : t.now = s.now := by simp) (hpending : t.pending = s.pending := by simp) : SamePins s t :=
  ⟨hrun, habase, hnow, hpending⟩

theorem SamePins.trans {s t u : State} (hst : SamePins s t) (htu : SamePins t u) : SamePins s u := by
  obtain ⟨hrun, habase, hnow, hpending⟩ := hst
  obtain ⟨hrun', habase', hnow', hpending'⟩ := htu
  exact ⟨hrun'.trans hrun, habase'.trans habase, hnow'.trans hnow, hpending'.trans hpending⟩

theorem SamePins.ite {s t u : State} {c : Prop} [Decidable c] (ht : SamePins s t) (hu : SamePins s u) :
    SamePins s (if c then t else u) := by
  split
  · exact ht
  · exact hu

/-! ### The command slot and the frames of the management port -/

theorem samePins_offer {f : State → State} (hf : ∀ u, SamePins u (f u)) (s : State) : SamePins s (s.offer f) :=
  .ite .of_keeps (hf s)

theorem samePins_offerCode (s : State) (code : Byte) : SamePins s (s.offerCode code) := by
  unfold State.offerCode
  split
  · exact samePins_offer (fun _ => .of_keeps) s
  · exact samePins_offer (fun _ => .of_keeps) s
  · exact samePins_offer (fun _ => .of_keeps) s
  · exact samePins_offer (fun _ => .of_keeps) s
  · exact .of_keeps
  · exact samePins_offer (fun _ => .of_keeps) s
  · exact samePins_offer (fun _ => .of_keeps) s
  · exact .of_keeps
  · exact samePins_offer (fun _ => .of_keeps) s
  · exact samePins_offer (f := (State.unknown · code)) (fun u => .of_keeps (t := u.answerAtOnce code .badArgument)) s

theorem samePins_writeRegister (s : State) (n : BitVec 6) (v : Word) : SamePins s (s.writeRegister n v) := by
  unfold State.writeRegister
  split
  · exact samePins_offerCode s _
  · exact .of_keeps
  · exact .of_keeps
  · exact .of_keeps
  · exact .of_keeps
  · exact .ite .of_keeps .of_keeps
  · exact .of_keeps
  · exact .of_keeps
  · exact .of_keeps
  · exact .of_keeps
  · exact .of_keeps
  · exact .of_keeps
  · exact .of_keeps

theorem samePins_withFrame (s : State) (f : Option Frame) : SamePins s (s.withFrame f) := .of_keeps

theorem samePins_completeFrame (s : State) (f : Frame) : SamePins s (s.completeFrame f) :=
  .ite (samePins_writeRegister s _ _) (.ite .of_keeps .of_keeps)

theorem samePins_clockInto (s : State) (f : Frame) (mosi : Bool) : SamePins s (s.clockInto f mosi) := by
  have hshifted : SamePins s { s with out := { s.out with miso := f.shiftedBit } } := .of_keeps
  exact hshifted.trans (.ite .of_keeps (.ite .of_keeps
    (.ite ((samePins_withFrame _ _).trans (samePins_completeFrame _ _)) (samePins_withFrame _ _))))

theorem samePins_linkEvent (s : State) (v : Word) (e : FrameEvent) : SamePins s (s.linkEvent v e) := by
  cases e with
  | write n => exact samePins_writeRegister s n v
  | select => exact samePins_withFrame s _
  | clock =>
    dsimp only [State.linkEvent]
    cases s.mgmt.frame with
    | none => exact .of_keeps
    | some f => exact samePins_clockInto s f _
  | deselect => exact samePins_withFrame s none

/-! ### What the three shells answer -/

/-- The command stops: it carries OK data that does not fit the wanted request at the front (R136, log entry 20). -/
def BreaksPromise (c : Instr) (s : State) : Prop :=
  ∃ e rest data, s.run = .running ∧ Awaits s e rest ∧ Carries c (.ok data) ∧ e.request.fits (.ok data) = false
    ∧ exec c s = .fault .memoryPromiseBroken

/-- What a command that is not of the pins answers: a next state with the pins, the timebase and the queue as they were; the
stop of data that does not fit; or, for a length that cannot reach the part, the refusal (log entry 20). -/
def KeepsPinsOrStops (c : Instr) (s : State) : Prop :=
  Leads c s (SamePins s) ∨ BreaksPromise c s ∨ c.wf = false ∧ exec c s = .refused .noSuchRequest

theorem happen_keepsPins {c : Instr} {s : State} {b : Bool} {f : State → State} (hexec : exec c s = happen s b f)
    (hf : ∀ u, SamePins u (f u)) : KeepsPinsOrStops c s := by
  have hclear : SamePins s s.clearOut := .of_keeps
  rcases happen_cases s b f with ⟨-, -, h⟩ | h
  · exact .inl ⟨_, hexec.trans h, (hclear.trans (hf _)).trans .of_keeps⟩
  · exact .inl ⟨_, hexec.trans h, hclear⟩

theorem acknowledge_keepsPins {c : Instr} {s : State} {serves : Purpose → Bool} {b : Bool} {f : State → State}
    (hexec : exec c s = acknowledge s serves b f) (hf : ∀ u, SamePins u (f u)) : KeepsPinsOrStops c s :=
  happen_keepsPins hexec fun u =>
    have hdrop : SamePins u u.dropFront := .of_keeps
    .ite hdrop (hdrop.trans (hf _))

/-- A live entry at the front is one whose completion is awaited (R139, R144). -/
theorem awaits_of_front {s : State} {e : MemEntry} (hfront : s.front = some e) (hlive : e.live = true) :
    Awaits s e s.mem.outstanding.tail := by
  unfold State.front at hfront
  split at hfront
  · cases hfront
  · rename_i hdrain
    exact ⟨(List.cons_head?_tail hfront).symm, hlive, Bool.eq_false_of_not_eq_true hdrain⟩

/-- Data that does not fit is OK data: an error carries none. -/
theorem ok_of_not_fits {r : MemRequest} {x : Completion} (h : r.fits x = false) : ∃ data, x = .ok data := by
  cases x with
  | ok data => exact ⟨data, rfl⟩
  | error => cases h

theorem complete_keepsPins {c : Instr} {s : State} {serves : Purpose → Bool} {x : Completion}
    {f : Purpose → State → State} (hexec : exec c s = complete s serves x f) (hf : ∀ p u, SamePins u (f p u))
    (hcarries : Carries c x := by simp [Carries]) : KeepsPinsOrStops c s := by
  unfold complete at hexec
  split at hexec
  · exact .inl ⟨_, hexec, .of_keeps⟩
  · rename_i e hfront
    split at hexec
    · rename_i hbroken
      simp only [Bool.and_eq_true, decide_eq_true_eq, Bool.not_eq_true'] at hbroken
      obtain ⟨⟨⟨hlive, hrun⟩, -⟩, hunfit⟩ := hbroken
      obtain ⟨data, rfl⟩ := ok_of_not_fits hunfit
      exact .inr <| .inl ⟨e, _, data, hrun, awaits_of_front hfront hlive, hcarries, hunfit, hexec⟩
    · refine happen_keepsPins hexec fun u => ?_
      have hdrop : SamePins u u.dropFront := .of_keeps
      exact .ite (hdrop.trans (hf _ _)) hdrop

/-! ### Every command -/

theorem exec_keepsPinsOrStops {c : Instr} (s : State) (hpin : c.isPin = false) : KeepsPinsOrStops c s := by
  cases c with
  | resetAssert => cases hpin
  | resetRelease abase => cases hpin
  | powerLoss => cases hpin
  | requestTake r =>
    by_cases hwf : r.wf = true
    · exact happen_keepsPins (f := (State.takeRequest · r)) (if_pos hwf) fun _ => .of_keeps
    · exact .inr <| .inr ⟨Bool.eq_false_of_not_eq_true hwf, if_neg hwf⟩
  | admission st => exact happen_keepsPins (f := (State.admitNext · st)) rfl fun _ => .of_keeps
  | reExamination st => exact happen_keepsPins (f := (State.reExamine · st)) rfl fun _ => .of_keeps
  | holdExpiry st => exact happen_keepsPins (f := (State.declineHeld · .holdExpired st)) rfl fun _ => .of_keeps
  | memoryGrant => exact happen_keepsPins (f := State.grant) rfl fun _ => .of_keeps
  | recordIssue => exact happen_keepsPins (f := State.grant) rfl fun _ => .of_keeps
  | capture => exact happen_keepsPins (f := State.grant) rfl fun _ => .of_keeps
  | passThroughGrant => exact happen_keepsPins (f := State.grant) rfl fun _ => .of_keeps
  | homeWriteIssue => exact happen_keepsPins (f := State.grant) rfl fun _ => .of_keeps
  | checkpointIssue => exact happen_keepsPins (f := State.grant) rfl fun _ => .of_keeps
  | serviceRequestGrant => exact happen_keepsPins (f := State.grant) rfl fun _ => .of_keeps
  | rewriteIssue => exact happen_keepsPins (f := State.grant) rfl fun _ => .of_keeps
  | recordAcknowledgement => exact acknowledge_keepsPins (f := State.recordOk) rfl fun _ => .of_keeps
  | recordFailure => exact acknowledge_keepsPins (f := State.recordFailed) rfl fun _ => .of_keeps
  | rewriteAcknowledgement st => exact acknowledge_keepsPins (f := (State.rewriteDone · st)) rfl fun _ => .of_keeps
  | startOfApply => exact happen_keepsPins (f := State.startApply) rfl fun _ => .of_keeps
  | homeWriteAcknowledgement => exact acknowledge_keepsPins (f := State.homeWriteOk) rfl fun _ => .of_keeps
  | applyFailure => exact acknowledge_keepsPins (f := State.homeWriteFailed) rfl fun _ => .of_keeps
  | checkpointAcknowledgement =>
    refine acknowledge_keepsPins (f := if s.frontIsRewrite then State.rewriteOk else State.checkpointOk) rfl fun u => ?_
    split
    · exact .of_keeps
    · exact .of_keeps
  | checkpointFailure second =>
    refine acknowledge_keepsPins (f := if s.frontIsRewrite then State.rewriteFailed else State.checkpointFailed) rfl
      fun u => ?_
    split
    · exact .of_keeps
    · exact .of_keeps
  | anchorFirstHalfCompletion st =>
    exact acknowledge_keepsPins (f := (State.firstHalfDone · s.frontIsRewrite st)) rfl fun _ => .of_keeps
  | passThroughCompletion x => exact complete_keepsPins (f := fun p t => t.passDone x p) rfl fun _ _ => .of_keeps
  | homeReadDataReturn x => exact complete_keepsPins (f := fun p t => t.homeReadDone x p) rfl fun _ _ => .of_keeps
  | drainCompletion => exact happen_keepsPins (f := fun t => t.dropFront.drainCheck) rfl fun _ => .of_keeps
  | anchorReadCompletion x => exact complete_keepsPins (f := fun _ t => t.anchorReadDone x) rfl fun _ _ => .of_keeps
  | scanReadCompletion x =>
    have hexec : exec (.scanReadCompletion x) s = execScanReadCompletion x s := rfl
    unfold execScanReadCompletion at hexec
    refine complete_keepsPins hexec fun p u => ?_
    split
    · exact .of_keeps
    · exact .of_keeps
  | walkReadCompletion x =>
    have hexec : exec (.walkReadCompletion x) s = execWalkReadCompletion x s := rfl
    unfold execWalkReadCompletion at hexec
    refine complete_keepsPins hexec fun p u => ?_
    split
    · exact .of_keeps
    · exact .of_keeps
    · exact .of_keeps
  | replayWriteCompletion st =>
    cases st with
    | ok => exact acknowledge_keepsPins (f := State.replayWriteOk) rfl fun _ => .of_keeps
    | error => exact acknowledge_keepsPins (f := (State.recoveryFault · .replayWrite)) rfl fun _ => .of_keeps
  | formatAnchorWriteCompletion st => exact acknowledge_keepsPins (f := (State.formatWriteDone · st)) rfl fun _ => .of_keeps
  | digestReadCompletion x => exact complete_keepsPins (f := fun _ t => t.digestReadDone x) rfl fun _ _ => .of_keeps
  | quiesce => exact happen_keepsPins (f := (State.offer · State.quiesce)) rfl (samePins_offer fun _ => .of_keeps)
  | resume => exact happen_keepsPins (f := (State.offer · State.resume)) rfl (samePins_offer fun _ => .of_keeps)
  | discardOpen => exact happen_keepsPins (f := (State.offer · State.discardOpen)) rfl (samePins_offer fun _ => .of_keeps)
  | clearFault => exact happen_keepsPins (f := (State.offer · State.clearFault)) rfl (samePins_offer fun _ => .of_keeps)
  | restart => exact happen_keepsPins (f := State.restart) rfl fun _ => .of_keeps
  | format => exact happen_keepsPins (f := (State.offer · State.format)) rfl (samePins_offer fun _ => .of_keeps)
  | digest => exact happen_keepsPins (f := (State.offer · State.digest)) rfl (samePins_offer fun _ => .of_keeps)
  | abortDigest => exact happen_keepsPins (f := State.abortDigest) rfl fun _ => .of_keeps
  | stageFromActive =>
    exact happen_keepsPins (f := (State.offer · State.stageFromActive)) rfl (samePins_offer fun _ => .of_keeps)
  | unknownCommand code => exact happen_keepsPins (f := (State.offerCode · code)) rfl (samePins_offerCode · code)
  | eventPop => exact happen_keepsPins (f := State.popEvent) rfl fun _ => .of_keeps
  | intEnableWrite value => exact happen_keepsPins (f := (State.writeIntEnable · value)) rfl fun _ => .of_keeps
  | lostClear => exact happen_keepsPins (f := State.clearLost) rfl fun _ => .of_keeps
  | profileDataWrite w value => exact happen_keepsPins (f := (State.writeProfileData · w value)) rfl fun _ => .of_keeps
  | registerWrite n value => exact happen_keepsPins (f := (State.linkEvent · value n)) rfl (samePins_linkEvent · value n)

/-- A command of the pins or the power answers a next state with the queue as it was (R147, R161). -/
theorem exec_pin_leads {c : Instr} (s : State) (hpin : c.isPin = true) : Leads c s fun t => t.pending = s.pending := by
  cases c with
  | resetAssert => exact ⟨_, rfl, rfl⟩
  | resetRelease abase => exact ⟨_, rfl, rfl⟩
  | powerLoss => exact ⟨_, rfl, rfl⟩
  | _ => cases hpin

/-- A next state of a command that is not of the pins has the pins, the timebase and the queue as they were. -/
theorem samePins_of_exec {c : Instr} {s t : State} (hpin : c.isPin = false) (ht : exec c s = .next t) : SamePins s t := by
  rcases exec_keepsPinsOrStops s hpin with ⟨u, hu, hsame⟩ | ⟨-, -, -, -, -, -, -, hstop⟩ | ⟨-, hrefused⟩
  · obtain rfl := Host.Outcome.next.inj (hu.symm.trans ht)
    exact hsame
  · cases hstop.symm.trans ht
  · cases hrefused.symm.trans ht

/-- Settles O4: a command of the pins always answers, and every other one keeps the pins or stops. -/
theorem eventsAnswerAndKeepPins : Obligations.EventsAnswerAndKeepPins := by
  unfold Obligations.EventsAnswerAndKeepPins
  refine ⟨fun c s hwf => ?_, fun c s t ht => ?_⟩
  · cases hpin : c.isPin with
    | true =>
      obtain ⟨t, ht, -⟩ := exec_pin_leads s hpin
      exact .inl ⟨t, ht⟩
    | false =>
      rcases exec_keepsPinsOrStops s hpin with ⟨t, ht, -⟩ | hstop | ⟨hillFormed, -⟩
      · exact .inl ⟨t, ht⟩
      · exact .inr hstop
      · cases hwf.symm.trans hillFormed
  · cases hpin : c.isPin with
    | true =>
      obtain ⟨u, hu, hpending⟩ := exec_pin_leads s hpin
      obtain rfl := Host.Outcome.next.inj (hu.symm.trans ht)
      exact ⟨hpending, fun h => by cases h⟩
    | false =>
      obtain ⟨hrun, habase, hnow, hpending⟩ := samePins_of_exec hpin ht
      exact ⟨hpending, fun _ => ⟨hrun, habase, hnow, hpending⟩⟩

end Sys2Proof.Machine
end

section
/-! The home writes of a replay (O36). -/

namespace Sys2Proof.Machine

/-- Recovery ends in FAULTED (R158), as `recoveryFault_eq` has it for RECOVERY_MISMATCH: of all causes only that of a failed
closing checkpoint leaves a return state (R163). -/
theorem recoveryFault_enters {s : State} {cause : FaultCause} (hstate : s.engine.state = .recovering)
    (hholds : ∀ st, getV s.holds st = none) (hcause : cause ≠ .checkpointWrite) : s.recoveryFault cause = { s with
      engine := s.engine.faultedWith cause none
      mgmt := (s.mgmt.push (.fault cause)).restartEnds .failed
      mem := { s.mem with outstanding := ignoring Purpose.isRecovery s.mem.outstanding } } := by
  have hstate' : (s.ignore Purpose.isRecovery).engine.state = .recovering := hstate
  have hback : returnStateAt .recovering cause none = none := if_neg hcause
  simp only [State.recoveryFault, State.report, State.enterFaulted, hstate', hback, reduceCtorEq, if_false]
  rw [foldl_declineHeld_none (by exact hholds), endIf_eq]
  rfl

/-- The replay `p` with one home write more acknowledged. -/
def State.replayAcked (s : State) (p : Replay) : State :=
  { s with service := { s.service with replay := some { p with acked := p.acked + 1 } } }

section

variable {s : State} {p : Replay} {g : Group}

theorem replayWriteOk_more (hp : s.service.replay = some p) (hg : s.groups.replaying = some g)
    (h : p.acked + 1 ≠ g.entries.length) : s.replayWriteOk = s.replayAcked p := by
  simp only [State.replayWriteOk, hp, hg]
  exact if_neg h

theorem replayWriteOk_last (hp : s.service.replay = some p) (hg : s.groups.replaying = some g)
    (h : p.acked + 1 = g.entries.length) : s.replayWriteOk = (s.replayAcked p).replayed g := by
  simp only [State.replayWriteOk, hp, hg]
  exact if_pos h

end

/-- Settles O36: a home write short of the last, the last one, and one that fails. -/
theorem replayWritesFinishTheGroup : Obligations.ReplayWritesFinishTheGroup := by
  unfold Obligations.ReplayWritesFinishTheGroup
  intro s e rest p g h hlive haw hpurpose hp hg hhead
  have hserves : e.purpose.isReplayWrite = true := by rw [hpurpose]; rfl
  refine ⟨fun hmore => ?_, fun hlast => ?_, fun hstate hholds => ?_⟩
  · exact acknowledge_leads (f := State.replayWriteOk) rfl hlive haw hserves rfl
      (replayWriteOk_more (s := s.completing rest) hp hg hmore) rfl fun t ht htout => ⟨htout, ht⟩
  · have hdone := replayWriteOk_last (s := s.completing rest) hp hg hlast
    refine acknowledge_leads (f := State.replayWriteOk) rfl hlive haw hserves rfl hdone ?_ fun t ht htout =>
      ⟨htout.trans ?_, ?_⟩
    · simp only [State.replayed_keeps]
      rfl
    · simp only [State.replayed_keeps]
      rfl
    · exact replayed_replays (s := (s.completing rest).replayAcked p) (u := s.completing rest) hhead rfl ht
  · exact acknowledge_leads (f := (State.recoveryFault · .replayWrite)) rfl hlive haw hserves rfl
      (recoveryFault_enters (s := s.completing rest) hstate hholds (by decide)) rfl fun t ht htout => ⟨htout, ht⟩

end Sys2Proof.Machine
end

section
/-! The scan stops at the first record that is not valid (O33). -/

namespace Sys2Proof.Machine

/-! ### H is fixed (R152, R153) -/

/-- H is fixed at `h` and phase REPLAY has begun at the durable tail, the scan's other reads to be ignored. -/
def State.headFixed (s : State) (h : Word) : State :=
  { s with
    mem := { s.mem with outstanding := ignoring Purpose.isScanRead s.mem.outstanding }
    service := { s.service with recovery := { s.service.recovery with
      phase := some .replay, scannedHead := some h, cursor := s.service.recovery.tail } } }

theorem fixHead_after {s : State} {h : Word} (htail : h ≠ s.service.recovery.tail) : s.fixHead h = s.headFixed h :=
  walkOn_before (s := s.headFixed h) rfl htail.symm

/-- An empty range ends replay in the same event (log entry 18). -/
theorem fixHead_at {s : State} {h : Word} (htail : h = s.service.recovery.tail) :
    s.fixHead h = (s.headFixed h).replayEnds h :=
  walkOn_at (s := s.headFixed h) rfl htail.symm

/-! ### A record of the scan (R152) -/

/-- The recovery record once the valid record `x` of `seq` has been scanned. -/
def Recovery.scanned (r : Recovery) (seq : Word) (x : Record) : Recovery := ({ r with cursor := seq + 1 }).see x

theorem Recovery.scanned_tail (r : Recovery) (seq : Word) (x : Record) : (r.scanned seq x).tail = r.tail := by
  cases x with
  | entry st g l cells => rfl
  | commit st g n ec sc => rfl
  | filler => rfl

theorem scanDone_valid {s : State} {seq : Word} {c : Completion} {x : Record} (h : s.recordOf seq c = some x) :
    s.scanDone seq c = if (seq + 1 - s.service.recovery.tail).toNat = s.ringSize
      then (s.withRecovery (·.scanned seq x)).fixHead (seq + 1) else s.withRecovery (·.scanned seq x) := by
  rw [← Recovery.scanned_tail s.service.recovery seq x]
  simp only [State.scanDone, h]
  rfl

/-- A scan that brings a valid record makes no response ready. -/
theorem scanDone_ports {s : State} {seq : Word} {c : Completion} {x : Record} (h : s.recordOf seq c = some x) :
    (s.scanDone seq c).ports = s.ports := by
  rw [scanDone_valid h]
  split
  · simp only [State.fixHead_keeps, State.withRecovery_keeps]
  · rfl

theorem scanDone_invalid {s : State} {seq : Word} {data : List Byte} (h : s.recordOf seq (.ok data) = none) :
    s.scanDone seq (.ok data) = s.fixHead seq := by
  simp only [State.scanDone, h]
  exact if_neg Completion.noConfusion

theorem scanDone_error (s : State) (seq : Word) : s.scanDone seq .error = s.recoveryFault .recoveryMismatch := rfl

/-- One past a full ring is not where the scan began: the ring holds at least 1024 records (R101). -/
theorem ringEnd_ne_tail {s : State} {f : Format} {head tail : Word} (hformat : s.journal.format = some f)
    (hfull : (head - tail).toNat = s.ringSize) : head ≠ tail := by
  rintro rfl
  have hpos : 0 < 2 ^ f.code.toNat := Nat.two_pow_pos _
  rw [ringSize_eq hformat, BitVec.sub_self, BitVec.toNat_zero] at hfull
  omega

/-- A valid record moves the cursor and the latest numbers; the one that completes the ring fixes H after itself. -/
theorem scanDone_becomes {s t : State} {f : Format} {seq : Word} {c : Completion} {x : Record}
    (ht : Becomes t (s.scanDone seq c)) (h : s.recordOf seq c = some x) (hformat : s.journal.format = some f) :
    ((seq + 1 - s.service.recovery.tail).toNat ≠ Machine.ringSize f.code → Becomes t (s.withRecovery (·.scanned seq x)))
    ∧ ((seq + 1 - s.service.recovery.tail).toNat = Machine.ringSize f.code →
        Becomes t ((s.withRecovery (·.scanned seq x)).headFixed (seq + 1))) := by
  have hring : s.ringSize = Machine.ringSize f.code := ringSize_eq hformat
  rw [scanDone_valid h, hring] at ht
  refine ⟨fun hmore => ?_, fun hfull => ?_⟩
  · rwa [if_neg hmore] at ht
  · have hend : seq + 1 ≠ (s.service.recovery.scanned seq x).tail := by
      rw [Recovery.scanned_tail]
      exact ringEnd_ne_tail hformat (hfull.trans hring.symm)
    rwa [if_pos hfull, fixHead_after (by exact hend)] at ht

/-! ### The completion of a read of the scan -/

theorem scanRead_leads {s u : State} {e : MemEntry} {rest : List MemEntry} {seq : Word} {c : Completion} {P : State → Prop}
    (hlive : Live s) (haw : Awaits s e rest) (hpurpose : e.purpose = .scanRead seq) (hfits : e.request.fits c = true)
    (hu : (s.completing rest).scanDone seq c = u) (hports : u.ports = s.ports)
    (hP : ∀ t, Becomes t u → t.out = Outputs.none → P t) : Leads (.scanReadCompletion c) s P := by
  have hexec : exec (.scanReadCompletion c) s = execScanReadCompletion c s := rfl
  have hserves : e.purpose.isScanRead = true := by rw [hpurpose]; rfl
  have hout : u.out = Outputs.none := by
    rw [← hu]
    simp only [State.scanDone_keeps]
    rfl
  unfold execScanReadCompletion at hexec
  exact complete_leads hexec hlive haw hserves hfits (by rw [hpurpose]; exact hu) hports
    fun t ht htout => hP t ht (htout.trans hout)

/-- Settles O33: a valid record short of the ring's end and at it, a record that is not valid, and a read that fails. -/
theorem scanStopsAtTheFirstInvalidRecord : Obligations.ScanStopsAtTheFirstInvalidRecord := by
  unfold Obligations.ScanStopsAtTheFirstInvalidRecord
  intro s e rest seq f hlive haw hpurpose hstate hphase hformat
  refine ⟨fun data x hfits hx => ?_, fun data hfits hnone => ?_, fun hholds => ?_⟩
  · have hrecord := (recordOf_some (s := s.completing rest) hformat seq data).trans hx
    refine scanRead_leads hlive haw hpurpose hfits rfl (scanDone_ports hrecord) fun t ht htout => ?_
    obtain ⟨hmore, hfull⟩ := scanDone_becomes ht hrecord hformat
    cases x with
    | entry st g l cells => exact ⟨htout, hmore, hfull⟩
    | commit st g n ec sc => exact ⟨htout, hmore, hfull⟩
    | filler => exact ⟨htout, hmore, hfull⟩
  · have hdone := scanDone_invalid ((recordOf_some (s := s.completing rest) hformat seq data).trans hnone)
    refine scanRead_leads hlive haw hpurpose hfits hdone ?_ fun t ht htout => ⟨htout, fun htail => ?_, fun htail => ?_⟩
    · simp only [State.fixHead_keeps]
      rfl
    · rw [fixHead_after (by exact htail)] at ht
      exact ht
    · rw [fixHead_at (by exact htail)] at ht
      exact ht
  · have hfault := recoveryFault_enters (s := s.completing rest) (cause := .recoveryMismatch) hstate hholds (by decide)
    exact scanRead_leads hlive haw hpurpose rfl ((scanDone_error _ seq).trans hfault) rfl fun t ht htout => ⟨htout, ht⟩

end Sys2Proof.Machine
end

section
/-! The anchors are read, chosen and loaded (O32). -/

namespace Sys2Proof.Machine

/-! ### The choice (R150) -/

theorem chooseAnchor_eq {a b : Option Anchor} {copy : Copy} {x : Anchor}
    (h : copy = .a ∧ a = some x ∧ (∀ y, b = some y → later y.number x.number = false)
      ∨ copy = .b ∧ b = some x ∧ ∀ y, a = some y → later x.number y.number = true) :
    chooseAnchor a b = some (copy, x) := by
  rcases h with ⟨rfl, rfl, hlater⟩ | ⟨rfl, rfl, hlater⟩
  · cases b with
    | none => rfl
    | some y => simp [chooseAnchor, hlater y rfl]
  · cases a with
    | none => rfl
    | some y => simp [chooseAnchor, hlater y rfl]

/-- Before the fourth read nothing is tested. -/
theorem chooseAnchors_early {s : State} (h : s.service.recovery.anchorReads.length ≠ 4) : s.chooseAnchors = s := by
  unfold State.chooseAnchors
  split
  · rename_i hreads
    have hlength := congrArg List.length hreads
    rw [List.length_map] at hlength
    exact absurd hlength h
  · rfl

section

variable {s : State} {a0 a1 b0 b1 : List Byte}

theorem chooseAnchors_none (hreads : s.service.recovery.anchorReads = [.ok a0, .ok a1, .ok b0, .ok b1])
    (ha : readAnchor (a0 ++ a1) = none) (hb : readAnchor (b0 ++ b1) = none) : s.chooseAnchors = s.noAnchor := by
  simp only [State.chooseAnchors, hreads, List.map_cons, List.map_nil, AnchorRead.bytes, ha, hb, chooseAnchor]

theorem chooseAnchors_some {copy : Copy} {a : Anchor}
    (hreads : s.service.recovery.anchorReads = [.ok a0, .ok a1, .ok b0, .ok b1])
    (h : chooseAnchor (readAnchor (a0 ++ a1)) (readAnchor (b0 ++ b1)) = some (copy, a)) :
    s.chooseAnchors = s.loadAnchor copy a := by
  simp only [State.chooseAnchors, hreads, List.map_cons, List.map_nil, AnchorRead.bytes, h]

end

/-! ### The ends of the anchor reads (R149, R150) -/

/-- The state in which an OK read of an anchor has been kept. -/
def State.anchorKept (s : State) (data : List Byte) : State :=
  s.withRecovery fun r => { r with anchorReads := r.anchorReads ++ [.ok data] }

theorem anchorKept_reads (s : State) (data : List Byte) :
    (s.anchorKept data).service.recovery.anchorReads = s.service.recovery.anchorReads ++ [.ok data] := rfl

theorem anchorReadDone_ok (s : State) (data : List Byte) : s.anchorReadDone (.ok data) = (s.anchorKept data).chooseAnchors := rfl

/-- Recovery has ended in UNFORMATTED, and a RESTART that runs DONE (R150, R160). -/
theorem noAnchor_eq (s : State) : s.noAnchor = { s with
    profile := none
    journal := { s.journal with format := none }
    ckpt := CheckpointLogic.coldReset
    service := { s.service with recovery := { s.service.recovery with phase := none } }
    engine := { s.engine with state := .unformatted, firstCause := none, causes := [], returnState := none
                              quiescePending := false }
    mgmt := s.mgmt.restartEnds .done } := endIf_eq _ _ _

theorem anchorReadDone_error {s : State} (hstate : s.engine.state = .recovering) (hholds : ∀ st, getV s.holds st = none) :
    s.anchorReadDone .error = { s with
      profile := none
      journal := { s.journal with format := none }
      service := { s.service with recovery := { s.service.recovery with anchorReads := [.error] } }
      engine := s.engine.faultedWith .recoveryRead none
      mgmt := (s.mgmt.push (.fault .recoveryRead)).restartEnds .failed
      mem := { s.mem with outstanding := ignoring Purpose.isRecovery s.mem.outstanding } } :=
  recoveryFault_enters (s := { (s.withRecovery fun r => { r with anchorReads := [.error] }) with
    profile := none, journal := { s.journal with format := none } }) hstate hholds (by decide)

/-! ### The completion of an anchor read -/

theorem anchorRead_leads {s u : State} {e : MemEntry} {rest : List MemEntry} {c : Completion} {P : State → Prop}
    (hlive : Live s) (haw : Awaits s e rest) (hpurpose : e.purpose = .anchorRead) (hfits : e.request.fits c = true)
    (hu : (s.completing rest).anchorReadDone c = u) (hports : u.ports = s.ports)
    (hP : ∀ t, Becomes t u → t.out = u.out → P t) : Leads (.anchorReadCompletion c) s P :=
  complete_leads (f := fun _ t => t.anchorReadDone c) rfl hlive haw (by rw [hpurpose]; rfl) hfits hu hports hP

/-- Settles O32: a read short of the fourth, a read that fails, and the fourth, without a valid anchor and with one. -/
theorem anchorReadsChooseAndLoad : Obligations.AnchorReadsChooseAndLoad := by
  unfold Obligations.AnchorReadsChooseAndLoad
  intro s e rest hlive haw hpurpose hstate
  refine ⟨fun data hfits hfew => ?_, fun hholds => ?_, fun a0 a1 b0 b1 hreads hfits => ?_⟩
  · have hkept : ((s.completing rest).anchorKept data).service.recovery.anchorReads.length ≠ 4 := by
      rw [anchorKept_reads, List.length_append, List.length_singleton]
      exact Nat.ne_of_lt (Nat.succ_lt_succ hfew)
    have hdone := (anchorReadDone_ok _ data).trans (chooseAnchors_early hkept)
    exact anchorRead_leads hlive haw hpurpose hfits hdone rfl fun t ht htout => ⟨htout, ht⟩
  · have hdone := anchorReadDone_error (s := s.completing rest) hstate hholds
    refine anchorRead_leads hlive haw hpurpose rfl hdone rfl fun t ht _ => ?_
    obtain ⟨-, -, -, -, hprofile, hgroups, hpool, hindex, -, hjournal, -, hckpt, hmem, hengine, hmgmt, -⟩ := ht.fields
    exact ⟨hprofile, hjournal, hengine, hmgmt, hmem, ⟨hgroups, hpool, hindex⟩, hckpt⟩
  · have hkept : ((s.completing rest).anchorKept b1).service.recovery.anchorReads = [.ok a0, .ok a1, .ok b0, .ok b1] :=
      (anchorKept_reads _ b1).trans (congrArg (· ++ [AnchorRead.ok b1]) hreads)
    refine ⟨fun ha hb => ?_, fun copy a hchoice => ?_⟩
    · have hdone := (anchorReadDone_ok _ b1).trans ((chooseAnchors_none hkept ha hb).trans (noAnchor_eq _))
      refine anchorRead_leads hlive haw hpurpose hfits hdone rfl fun t ht _ => ?_
      obtain ⟨-, -, -, hports, hprofile, hgroups, hpool, hindex, -, hjournal, -, hckpt, hmem, hengine, hmgmt, -⟩ := ht.fields
      exact ⟨congrArg EngineControl.state hengine, hprofile, hjournal, hckpt, hmgmt, ⟨hgroups, hpool, hindex⟩, hmem, hports⟩
    · have hdone := (anchorReadDone_ok _ b1).trans (chooseAnchors_some hkept (chooseAnchor_eq hchoice))
      refine anchorRead_leads hlive haw hpurpose hfits hdone rfl fun t ht _ => ?_
      unfold Becomes at ht
      rw [ht]
      exact ⟨rfl, rfl, rfl, rfl, rfl, rfl, rfl, rfl, rfl, rfl, rfl, rfl, rfl, rfl, rfl⟩

end Sys2Proof.Machine
end

section
/-! The cold-reset values (O2) and the part that does not run (O3). -/

namespace Sys2Proof.Machine

/-! ### The cold-reset values (R147) -/

/-- The cold-reset values, block by block; the tables hold the same in each entry. -/
theorem coldValues_coldReset (abase : BitVec 4) : ColdValues abase (State.coldReset abase) := by
  have hports (st : Stream) : getV (State.coldReset abase).ports st = { places := [], nextIndex := 0 } := getV_replicate _ _
  have hopens (st : Stream) : (State.coldReset abase).openGroup? st = none := getV_replicate _ _
  have hfree : (State.coldReset abase).pool.free = allSlots := by rw [State.coldReset, SlotPool.cleared]
  have hslots (id : SlotId) : (State.coldReset abase).slot id = none := getV_replicate _ _
  have hholds (st : Stream) : getV (State.coldReset abase).holds st = none := getV_replicate _ _
  have hregions (i : Fin 6) : (getV (State.coldReset abase).engine.staging.regions i).enabled = false :=
    congrArg Region.enabled (getV_replicate Region.disabled i)
  have hstreams (j : Fin 8) : (getV (State.coldReset abase).engine.staging.streams j).enabled = false :=
    congrArg StreamEntry.enabled (getV_replicate StreamEntry.disabled j)
  have hargs (i : Fin 4) : getV (State.coldReset abase).mgmt.args i = 0 := getV_replicate _ _
  exact ⟨rfl, rfl, hports, rfl, hopens, rfl, rfl, rfl, hfree, hslots, rfl, hholds, rfl, rfl, rfl, rfl,
    rfl, rfl, rfl, rfl, rfl, rfl, rfl, rfl, rfl, rfl, rfl, rfl, rfl, rfl, rfl, rfl, rfl, rfl,
    hregions, hstreams, rfl, rfl, hargs, rfl, rfl, rfl, rfl, rfl, rfl, rfl, rfl, rfl, rfl, rfl, rfl, rfl, rfl, rfl, rfl,
    rfl, rfl, rfl, rfl⟩

/-- The waiting commands and the count of free values, which a reset keeps, are none of the cold-reset values. -/
theorem coldValues_resetTo (s : State) (abase : BitVec 4) : ColdValues abase (s.resetTo abase) := coldValues_coldReset abase

/-- Settles O2: the state after reset, and RESET_RELEASE from any state. -/
theorem coldResetValues : Obligations.ColdResetValues := by
  unfold Obligations.ColdResetValues
  refine ⟨⟨coldValues_coldReset 0, rfl, rfl⟩, fun s abase => ?_⟩
  exact ⟨s.resetTo abase, rfl, coldValues_resetTo s abase, rfl, rfl, rfl⟩

/-! ### While the part does not run (R147, R161) -/

/-- A completion that may carry data finds no one to receive it, whatever its data. -/
theorem complete_idle {s : State} (serves : Purpose → Bool) (x : Completion) (f : Purpose → State → State)
    (hrun : s.run ≠ .running) : complete s serves x f = .next s.clearOut := by
  unfold complete
  split
  · rfl
  · rw [if_neg (by simp [hrun])]
    exact happen_idle (.inl hrun)

/-- Nor does one of a write. -/
theorem acknowledge_idle {s : State} (serves : Purpose → Bool) (b : Bool) (f : State → State) (hrun : s.run ≠ .running) :
    acknowledge s serves b f = .next s.clearOut := happen_idle (.inl hrun)

/-- No event takes place: each well-formed command but those of the pins goes through one of the three shells. -/
theorem exec_idle {c : Instr} {s : State} (hwf : c.wf = true) (hpin : c.isPin = false) (hrun : s.run ≠ .running) :
    exec c s = .next s.clearOut := by
  unfold exec
  cases c with
  | resetAssert => cases hpin
  | resetRelease abase => cases hpin
  | powerLoss => cases hpin
  | requestTake r => exact (exec_requestTake hwf).trans (happen_idle (.inl hrun))
  | passThroughCompletion x => exact complete_idle _ x _ hrun
  | homeReadDataReturn x => exact complete_idle _ x _ hrun
  | anchorReadCompletion x => exact complete_idle _ x _ hrun
  | scanReadCompletion x => exact complete_idle _ x _ hrun
  | walkReadCompletion x => exact complete_idle _ x _ hrun
  | digestReadCompletion x => exact complete_idle _ x _ hrun
  | recordAcknowledgement => exact acknowledge_idle _ _ _ hrun
  | recordFailure => exact acknowledge_idle _ _ _ hrun
  | rewriteAcknowledgement st => exact acknowledge_idle _ _ _ hrun
  | homeWriteAcknowledgement => exact acknowledge_idle _ _ _ hrun
  | applyFailure => exact acknowledge_idle _ _ _ hrun
  | checkpointAcknowledgement => exact acknowledge_idle _ _ _ hrun
  | checkpointFailure second => exact acknowledge_idle _ _ _ hrun
  | anchorFirstHalfCompletion st => exact acknowledge_idle _ _ _ hrun
  | replayWriteCompletion st => exact acknowledge_idle _ _ _ hrun
  | formatAnchorWriteCompletion st => exact acknowledge_idle _ _ _ hrun
  | _ => exact happen_idle (.inl hrun)

/-- Settles O3: RESET_ASSERT and POWER_LOSS, and every other command while the part does not run. -/
theorem stoppedPartDoesNothing : Obligations.StoppedPartDoesNothing := by
  unfold Obligations.StoppedPartDoesNothing
  refine ⟨fun s => ⟨⟨_, rfl, rfl⟩, ⟨_, rfl, coldValues_resetTo s s.abase, rfl, rfl⟩⟩, fun c s hwf hpin hrun => ?_⟩
  exact ⟨s.clearOut, exec_idle hwf hpin hrun, rfl⟩

end Sys2Proof.Machine
end

section
/-! SUPPORT. Commands that are taken in an IDLE slot (R177). -/

namespace Sys2Proof.Machine

/-- A command taken in an IDLE slot has its own effect (R177). -/
theorem offered_leads {c : Instr} {s u : State} {f : State → State} {P : State → Prop}
    (hexec : exec c s = happen s true (State.offer · f)) (hlive : Live s) (hidle : s.mgmt.running = none)
    (hu : f s.clearOut = u) (hports : u.ports = s.ports) (hout : u.out = Outputs.none)
    (hP : ∀ t, t.out = Outputs.none → Becomes t u → P t) : Leads c s P := by
  have hoffer : s.clearOut.offer f = u := (if_neg (by simp [State.clearOut, hidle])).trans hu
  refine leads_of_next hlive ?_ hports hout fun t ht htout => hP t htout ht
  rw [hexec, happen_next hlive.1 rfl, hoffer]

end Sys2Proof.Machine
end

section
/-! QUIESCE in each engine state (O40). -/

namespace Sys2Proof.Machine

/-! ### The quiesce-completion test (R167) -/

/-- The test changes the Checkpoint Logic alone. -/
theorem quiesceTest_eq (s : State) : s.quiesceTest = { s with ckpt := quiesceTested s s } := by
  rw [← quiesceTest_ckpt]
  apply State.ext_fields <;> simp

/-- QUIESCE in ONLINE. -/
theorem quiesce_online {s : State} (h : s.engine.state = .online) : s.quiesce = { s with
    engine := { s.engine with state := .quiescing }
    ckpt := quiesceTested s { s with engine := { s.engine with state := .quiescing } }
    mgmt := s.mgmt.answered 1 .done } := by
  simp only [State.quiesce, h, quiesceTest_eq]
  rfl

/-- QUIESCE in QUIESCING and QUIESCED. -/
theorem quiesce_again {s : State} (h : s.engine.state = .quiescing ∨ s.engine.state = .quiesced) :
    s.quiesce = { s with mgmt := s.mgmt.answered 1 .done } := by
  rcases h with h | h
  all_goals
    simp only [State.quiesce, h]
    rfl

/-- QUIESCE in FAULTED with ONLINE-side causes alone, and at least one. -/
theorem quiesce_clearable {s : State} (h : s.clearable = true) :
    s.quiesce = { s with engine := { s.engine with quiescePending := true }, mgmt := s.mgmt.answered 1 .done } := by
  have hstate := ((clearable_iff s).1 h).1
  simp only [State.quiesce, hstate, h, if_true]
  rfl

/-- QUIESCE where it is not accepted. -/
theorem quiesce_wrongState {s : State} (h : s.engine.state = .recovering ∨ s.engine.state = .unformatted
    ∨ s.engine.state = .faulted ∧ (s.engine.causes = [] ∨ ∃ c ∈ s.engine.causes, c.onlineSide = false)) :
    s.quiesce = { s with mgmt := s.mgmt.answered 1 .wrongState } := by
  rcases h with h | h | ⟨h, hcauses⟩
  · simp only [State.quiesce, h]
    rfl
  · simp only [State.quiesce, h]
    rfl
  · have hnot : ¬ s.clearable = true := fun hclearable => by
      obtain ⟨-, hsome, honline⟩ := (clearable_iff s).1 hclearable
      rcases hcauses with hempty | ⟨c, hc, hside⟩
      · exact hsome hempty
      · rw [honline c hc] at hside
        cases hside
    simp only [State.quiesce, h, if_neg hnot]
    rfl

/-- Settles O40: ONLINE, QUIESCING and QUIESCED, FAULTED with causes that can be cleared, and the other states. -/
theorem quiesceByState : Obligations.QuiesceByState := by
  unfold Obligations.QuiesceByState
  intro s hlive hidle
  refine offered_leads (f := State.quiesce) rfl hlive hidle rfl (by simp) (by simp; rfl) fun t hout ht =>
    ⟨hout, fun h => ?_, fun h => ?_, fun h hsome honline => ?_, fun h => ?_⟩
  · rw [quiesce_online (s := s.clearOut) h] at ht
    obtain ⟨-, -, -, -, -, hgroups, -, -, -, hjournal, -, -, -, hengine, -⟩ := ht.fields
    rw [quiesces_congr (t := { s with engine := { s.engine with state := .quiescing } }) hengine hgroups hjournal]
    exact ht
  · rwa [quiesce_again (s := s.clearOut) h] at ht
  · rwa [quiesce_clearable (s := s.clearOut) ((clearable_iff s).2 ⟨h, hsome, honline⟩)] at ht
  · rwa [quiesce_wrongState (s := s.clearOut) h] at ht

end Sys2Proof.Machine
end

section
/-! RESUME and STAGE_FROM_ACTIVE (O41). -/

namespace Sys2Proof.Machine

/-! ### RESUME (R170) -/

theorem resume_wrongState {s : State} (h : s.engine.state ≠ .quiesced) :
    s.resume = { s with mgmt := s.mgmt.answered 2 .wrongState } := if_neg h

theorem resume_invalid {s : State} {item : Byte} {test : BitVec 4} (h : s.engine.state = .quiesced)
    (hfault : profileFault s.engine.staging (journalBase s.abase) s.ringSize = some (item, test)) :
    s.resume = { s with mgmt := s.mgmt.answered 2 .profileInvalid item test } := by
  rw [State.resume, if_pos h, hfault]
  rfl

theorem resume_valid {s : State} (h : s.engine.state = .quiesced)
    (hvalid : profileFault s.engine.staging (journalBase s.abase) s.ringSize = none) : s.resume = { s with
      engine := { s.engine with activation := some s.engine.staging }
      ckpt := { s.ckpt with request := some .resume, pending := true }
      mgmt := s.mgmt.runs .resume } := by
  rw [State.resume, if_pos h, hvalid]
  rfl

/-! ### STAGE_FROM_ACTIVE (R169) -/

theorem stageFromActive_copies {s : State} {p : Profile} (hprofile : s.profile = some p) (h : s.engine.state ≠ .recovering) :
    s.stageFromActive = { s with engine := { s.engine with staging := p }, mgmt := s.mgmt.answered 9 .done } := by
  simp only [State.stageFromActive, hprofile, if_neg h]
  rfl

theorem stageFromActive_wrongState {s : State} (h : s.profile = none ∨ s.engine.state = .recovering) :
    s.stageFromActive = { s with mgmt := s.mgmt.answered 9 .wrongState } := by
  unfold State.stageFromActive
  split
  · rfl
  · rename_i p hprofile
    rw [if_pos (h.resolve_left (by simp [hprofile]))]
    rfl

/-- Settles O41: RESUME refused, with an invalid profile and with a valid one; STAGE_FROM_ACTIVE taken and refused. -/
theorem resumeAndStageFromActive : Obligations.ResumeAndStageFromActive := by
  unfold Obligations.ResumeAndStageFromActive
  intro s hlive hidle
  constructor
  · refine offered_leads (f := State.resume) rfl hlive hidle rfl (by simp) (by simp; rfl) fun t hout ht =>
      ⟨hout, fun h => ?_, fun h item test hfault => ?_, fun h hvalid => ?_⟩
    · rwa [resume_wrongState (s := s.clearOut) h] at ht
    · rwa [resume_invalid (s := s.clearOut) h hfault] at ht
    · rwa [resume_valid (s := s.clearOut) h hvalid] at ht
  · refine offered_leads (f := State.stageFromActive) rfl hlive hidle rfl (by simp) (by simp; rfl) fun t hout ht =>
      ⟨hout, fun p hprofile h => ?_, fun h => ?_⟩
    · rwa [stageFromActive_copies (s := s.clearOut) hprofile h] at ht
    · rwa [stageFromActive_wrongState (s := s.clearOut) h] at ht

end Sys2Proof.Machine
end

section
/-! SUPPORT. Tables searched from the front. -/

namespace Sys2Proof.Machine

variable {α β : Type} {n : Nat}

/-- Entry `i` of a table's list. -/
theorem toList_getElem? (v : Vector α n) (i : Fin n) : v.toList[i.val]? = some (getV v i) := by
  simp [getV]

/-- Some entry of a table meets the test. -/
theorem any_toList_iff (v : Vector α n) (f : α → Bool) : v.toList.any f = true ↔ ∃ i, f (getV v i) = true := by
  rw [List.any_eq_true]
  constructor
  · rintro ⟨x, hx, hf⟩
    obtain ⟨i, hi, rfl⟩ := List.mem_iff_getElem.1 hx
    exact ⟨⟨i, by simpa using hi⟩, by simpa [getV] using hf⟩
  · rintro ⟨i, hf⟩
    exact ⟨_, List.mem_of_getElem? (toList_getElem? v i), hf⟩

/-- Some entry before entry `i` meets the test. -/
theorem any_take_iff (v : Vector α n) (i : Fin n) (f : α → Bool) :
    (v.toList.take i.val).any f = true ↔ ∃ j < i, f (getV v j) = true := by
  rw [List.any_eq_true]
  constructor
  · rintro ⟨x, hx, hf⟩
    obtain ⟨j, hj, rfl⟩ := List.mem_iff_getElem.1 hx
    have hlt : j < i.val := by simp at hj; omega
    exact ⟨⟨j, hlt.trans i.isLt⟩, hlt, by simpa [getV] using hf⟩
  · rintro ⟨j, hlt, hf⟩
    have hj : (v.toList.take i.val)[j.val]? = some (getV v j) := by
      rw [List.getElem?_take_of_lt hlt, toList_getElem?]
    exact ⟨_, List.mem_of_getElem? hj, hf⟩

/-- The first number below `n` at which `f` answers decides. -/
theorem findSome?_range_of_first {f : Nat → Option β} {i : Nat} {b : β} (hi : i < n) (hbefore : ∀ j < i, f j = none)
    (hf : f i = some b) : (List.range n).findSome? f = some b := by
  have hsplit : List.range n = List.range i ++ i :: (List.range (n - i - 1)).map (i + 1 + ·) := by
    obtain ⟨k, rfl⟩ : ∃ k, n = i + 1 + k := ⟨n - i - 1, by omega⟩
    have hk : i + 1 + k - i - 1 = k := by omega
    rw [hk, List.range_add, List.range_succ, List.append_assoc]
    rfl
  exact List.findSome?_eq_some_iff.2 ⟨_, _, _, hsplit, hf, fun j hj => hbefore j (List.mem_range.1 hj)⟩

theorem findSome?_range_none {f : Nat → Option β} (h : ∀ j < n, f j = none) : (List.range n).findSome? f = none :=
  List.findSome?_eq_none_iff.2 fun j hj => h j (List.mem_range.1 hj)

end Sys2Proof.Machine
end

section
/-! Validation reports the first test that fails (O42). -/

namespace Sys2Proof.Machine

variable {p : Profile} {base n : Nat}

/-! ### The items in order (R169, R187) -/

theorem profileFault_of_region {i : Fin 6} {t : BitVec 4} (hbefore : ∀ j : Fin 6, j < i → regionFault p base n j.val = none)
    (ht : regionFault p base n i.val = some t) : profileFault p base n = some (BitVec.ofNat 8 i.val, t) := by
  have hfirst := findSome?_range_of_first (f := fun i => (regionFault p base n i).map fun t => (BitVec.ofNat 8 i, t)) i.isLt
    (fun j hj => by simp [hbefore ⟨j, hj.trans i.isLt⟩ hj]) (by rw [ht]; rfl)
  rw [profileFault, hfirst]
  rfl

theorem regions_pass (h : ∀ i : Fin 6, regionFault p base n i.val = none) :
    ((List.range 6).findSome? fun i => (regionFault p base n i).map fun t => (BitVec.ofNat 8 i, t)) = none :=
  findSome?_range_none fun i hi => by simp [h ⟨i, hi⟩]

theorem profileFault_of_stream {j : Fin 8} {t : BitVec 4} (hregions : ∀ i : Fin 6, regionFault p base n i.val = none)
    (hbefore : ∀ k : Fin 8, k < j → streamFault p base n k.val = none) (ht : streamFault p base n j.val = some t) :
    profileFault p base n = some (BitVec.ofNat 8 (8 + j.val), t) := by
  have hfirst := findSome?_range_of_first (f := fun j => (streamFault p base n j).map fun t => (BitVec.ofNat 8 (8 + j), t))
    j.isLt (fun k hk => by simp [hbefore ⟨k, hk.trans j.isLt⟩ hk]) (by rw [ht]; rfl)
  rw [profileFault, regions_pass hregions, hfirst]
  rfl

theorem profileFault_of_reserve (hregions : ∀ i : Fin 6, regionFault p base n i.val = none)
    (hstreams : ∀ j : Fin 8, streamFault p base n j.val = none) :
    profileFault p base n = if 128 < p.openReserve.toNat then some (16, 1) else none := by
  have hpass : ((List.range 8).findSome? fun j => (streamFault p base n j).map fun t => (BitVec.ofNat 8 (8 + j), t)) = none :=
    findSome?_range_none fun j hj => by simp [hstreams ⟨j, hj⟩]
  rw [profileFault, regions_pass hregions, hpass]
  rfl

/-! ### The tests of a region -/

/-- The byte address `a` lies in the region, and the region is enabled (R50). -/
theorem enabled_holds_iff (g : Region) (a : Nat) : (g.enabled && g.holds a) = true
    ↔ g.enabled = true ∧ g.base.toNat ≤ a ∧ a < g.base.toNat + 2 ^ g.sizeExp.toNat := by
  simp only [Region.holds, Bool.and_eq_true, decide_eq_true_eq]
  rfl

/-- Two ranges of bytes share one. -/
theorem rangesMeet_iff (a aStop b bStop : Nat) : rangesMeet a aStop b bStop = true ↔ a < bStop ∧ b < aStop := by
  simp [rangesMeet]

/-- Region `i` shares a byte with an earlier enabled region (R50). -/
theorem regionShares_iff (i : Fin 6) :
    ((p.regions.toList.take i.val).any fun h => h.enabled
      && rangesMeet (getV p.regions i).base.toNat (getV p.regions i).stop h.base.toNat h.stop) = true
    ↔ ∃ j < i, (getV p.regions j).enabled = true
      ∧ (getV p.regions i).base.toNat < (getV p.regions j).base.toNat + 2 ^ (getV p.regions j).sizeExp.toNat
      ∧ (getV p.regions j).base.toNat < (getV p.regions i).base.toNat + 2 ^ (getV p.regions i).sizeExp.toNat := by
  simp only [any_take_iff, Bool.and_eq_true, rangesMeet_iff]
  rfl

theorem regionFault_disabled {i : Fin 6} (h : (getV p.regions i).enabled = false) : regionFault p base n i.val = none := by
  rw [regionFault, toList_getElem?]
  exact if_pos (by simp [h])

/-- The tests of an enabled region in their order. -/
theorem regionFault_enabled {i : Fin 6} (h : (getV p.regions i).enabled = true) : regionFault p base n i.val
    = if (getV p.regions i).sizeExp.toNat < 12 ∨ 32 < (getV p.regions i).sizeExp.toNat then some 1
      else if (getV p.regions i).base.toNat % 2 ^ (getV p.regions i).sizeExp.toNat ≠ 0 then some 2
      else if ∃ j < i, (getV p.regions j).enabled = true
        ∧ (getV p.regions i).base.toNat < (getV p.regions j).base.toNat + 2 ^ (getV p.regions j).sizeExp.toNat
        ∧ (getV p.regions j).base.toNat < (getV p.regions i).base.toNat + 2 ^ (getV p.regions i).sizeExp.toNat then some 3
      else if (getV p.regions i).base.toNat < base + (4096 + 64 * n)
        ∧ base < (getV p.regions i).base.toNat + 2 ^ (getV p.regions i).sizeExp.toNat then some 4
      else none := by
  simp only [← regionShares_iff]
  rw [regionFault, toList_getElem?]
  simp only [h, rangesMeet_iff, Bool.or_eq_true, decide_eq_true_eq]
  rfl

/-! ### The tests of a stream -/

/-- The word at `w` is the commit word or the cancel word of the entry (R51). -/
theorem mem_words_iff (e : StreamEntry) (w : Addr) :
    w ∈ e.words ↔ w = e.commitWord ∨ e.cancelPresent = true ∧ w = e.cancelWord := by
  unfold StreamEntry.words StreamEntry.cancel
  split <;> simp [*]

/-- The commit word lies in an enabled region that lets the stream write (R51). -/
theorem commitInside_iff (j : Fin 8) (a : Nat) :
    (p.regions.toList.any fun g => g.enabled && g.holds a && g.mask.getLsbD j.val) = true
    ↔ ∃ i, ((getV p.regions i).enabled = true ∧ (getV p.regions i).base.toNat ≤ a
        ∧ a < (getV p.regions i).base.toNat + 2 ^ (getV p.regions i).sizeExp.toNat)
      ∧ (getV p.regions i).mask.getLsbD j.val = true := by
  simp only [any_toList_iff, Bool.and_eq_true (_ && _), enabled_holds_iff]

/-- The byte lies in an enabled region (R50). -/
theorem inRegion_iff (a : Nat) : p.inRegion a = true
    ↔ ∃ i, (getV p.regions i).enabled = true ∧ (getV p.regions i).base.toNat ≤ a
        ∧ a < (getV p.regions i).base.toNat + 2 ^ (getV p.regions i).sizeExp.toNat := by
  rw [Profile.inRegion, Profile.regionAt, List.find?_isSome, ← List.any_eq_true, any_toList_iff]
  simp only [enabled_holds_iff]

/-- The cancel word fails its test (R51, R169). -/
theorem badCancel_iff (e : StreamEntry) :
    (e.cancel.any fun a => a.toNat % 8 ≠ 0 || p.inRegion a.toNat
      || (base ≤ a.toNat && a.toNat < base + journalLength n)) = true
    ↔ e.cancelPresent = true ∧ (e.cancelWord.toNat % 8 ≠ 0
      ∨ (∃ i, (getV p.regions i).enabled = true ∧ (getV p.regions i).base.toNat ≤ e.cancelWord.toNat
        ∧ e.cancelWord.toNat < (getV p.regions i).base.toNat + 2 ^ (getV p.regions i).sizeExp.toNat)
      ∨ base ≤ e.cancelWord.toNat ∧ e.cancelWord.toNat < base + (4096 + 64 * n)) := by
  rw [← inRegion_iff]
  unfold StreamEntry.cancel
  split
  · rename_i hpresent
    simp only [hpresent, Option.any_some, Bool.or_eq_true, Bool.and_eq_true, decide_eq_true_eq, or_assoc, true_and]
    rfl
  · rename_i habsent
    simp [habsent]

/-- Stream `j` has a word in common with an earlier enabled stream (R51, R169). -/
theorem streamShares_iff (j : Fin 8) :
    ((p.streams.toList.take j.val).any fun f => f.enabled && (getV p.streams j).words.any f.words.contains) = true
    ↔ ∃ k < j, (getV p.streams k).enabled = true
      ∧ ∃ w, (w = (getV p.streams j).commitWord ∨ (getV p.streams j).cancelPresent = true ∧ w = (getV p.streams j).cancelWord)
        ∧ (w = (getV p.streams k).commitWord
          ∨ (getV p.streams k).cancelPresent = true ∧ w = (getV p.streams k).cancelWord) := by
  rw [any_take_iff]
  simp only [Bool.and_eq_true, List.any_eq_true, List.contains_iff_mem, mem_words_iff]

theorem streamFault_disabled {j : Fin 8} (h : (getV p.streams j).enabled = false) : streamFault p base n j.val = none := by
  rw [streamFault, toList_getElem?]
  exact if_pos (by simp [h])

/-- The tests of an enabled stream in their order. -/
theorem streamFault_enabled {j : Fin 8} (h : (getV p.streams j).enabled = true) : streamFault p base n j.val
    = if (getV p.streams j).commitWord.toNat % 8 ≠ 0 then some 1
      else if ¬ (p.regions.toList.any fun g =>
        g.enabled && g.holds (getV p.streams j).commitWord.toNat && g.mask.getLsbD j.val) = true then some 2
      else if ((getV p.streams j).cancel.any fun a => a.toNat % 8 ≠ 0 || p.inRegion a.toNat
        || (base ≤ a.toNat && a.toNat < base + journalLength n)) = true then some 3
      else if ((p.streams.toList.take j.val).any fun f => f.enabled
        && (getV p.streams j).words.any f.words.contains) = true then some 4
      else if (getV p.streams j).entryLimit.toNat < 1 ∨ 64 < (getV p.streams j).entryLimit.toNat then some 5
      else none := by
  rw [streamFault, toList_getElem?]
  simp only [h, Bool.or_eq_true, decide_eq_true_eq, Bool.not_eq_true']
  simp

/-- Settles O42: the items in order, then the tests of a region and those of a stream in order. -/
theorem validationReportsTheFirstFailure : Obligations.ValidationReportsTheFirstFailure := by
  unfold Obligations.ValidationReportsTheFirstFailure
  intro p base n
  refine ⟨fun i hbefore t ht => profileFault_of_region hbefore ht,
    fun hregions j hbefore t ht => profileFault_of_stream hregions hbefore ht, profileFault_of_reserve,
    fun hregions hstreams => profileFault_of_reserve (fun i => regionFault_disabled (hregions i))
      fun j => streamFault_disabled (hstreams j),
    fun i => ⟨regionFault_disabled, fun henabled => ?_⟩, fun j => ⟨streamFault_disabled, fun henabled => ?_⟩⟩
  · rw [regionFault_enabled henabled]
    refine ⟨fun hsize => if_pos hsize, fun hsize halign => ?_, fun hsize halign hshares => ?_,
      fun hsize halign hshares hjournal => ?_, fun hsize halign hshares hjournal => ?_⟩
    · rw [if_neg hsize, if_pos halign]
    · rw [if_neg hsize, if_neg (not_not_intro halign), if_pos hshares]
    · rw [if_neg hsize, if_neg (not_not_intro halign), if_neg hshares, if_pos hjournal]
    · rw [if_neg hsize, if_neg (not_not_intro halign), if_neg hshares, if_neg hjournal]
  · have hinside h := not_not_intro ((commitInside_iff (p := p) j (getV p.streams j).commitWord.toNat).2 (not_not.1 h))
    have hcancel h := mt (badCancel_iff (p := p) (base := base) (n := n) (getV p.streams j)).1 h
    have hshares h := mt (streamShares_iff (p := p) j).1 h
    rw [streamFault_enabled henabled]
    refine ⟨fun halign => if_pos halign, fun halign hout => ?_, fun halign hin hbad => ?_, fun halign hin hfree hmeet => ?_,
      fun halign hin hfree hown hlimit => ?_, fun halign hin hfree hown hlimit => ?_⟩
    · rw [if_neg (not_not_intro halign), if_pos (mt (commitInside_iff j _).1 hout)]
    · rw [if_neg (not_not_intro halign), if_neg (hinside hin), if_pos ((badCancel_iff _).2 hbad)]
    · rw [if_neg (not_not_intro halign), if_neg (hinside hin), if_neg (hcancel hfree), if_pos ((streamShares_iff j).2 hmeet)]
    · rw [if_neg (not_not_intro halign), if_neg (hinside hin), if_neg (hcancel hfree), if_neg (hshares hown), if_pos hlimit]
    · rw [if_neg (not_not_intro halign), if_neg (hinside hin), if_neg (hcancel hfree), if_neg (hshares hown), if_neg hlimit]

end Sys2Proof.Machine
end

section
/-! DIGEST's checks and limit; ABORT_DIGEST (O47). -/

namespace Sys2Proof.Machine

/-! ### The limit of a digest (R173) -/

/-- The lowest of `top` and the numbers of `l`: none is below it, and it is one of them. -/
theorem foldl_min_spec (l : List Nat) (top : Nat) : l.foldl min top ≤ top ∧ (∀ x ∈ l, l.foldl min top ≤ x)
    ∧ (l.foldl min top = top ∨ l.foldl min top ∈ l) := by
  induction l generalizing top with
  | nil => simp
  | cons y l ih =>
    obtain ⟨htop, hall, hmem⟩ := ih (min top y)
    rw [List.foldl_cons]
    refine ⟨htop.trans (Nat.min_le_left _ _), ?_, ?_⟩
    · rintro x (_ | ⟨_, hx⟩)
      · exact htop.trans (Nat.min_le_right _ _)
      · exact hall x hx
    · rcases hmem with h | h
      · rcases min_choice top y with hy | hy
        · exact .inl (h.trans hy)
        · exact .inr (by rw [h, hy]; exact List.mem_cons_self)
      · exact .inr (List.mem_cons_of_mem _ h)

/-- The starts after `start` of the journal area and of the enabled regions (R173). -/
def State.startsAfter (s : State) (p : Profile) (start : Nat) : List Nat :=
  (journalBase s.abase :: (p.regions.toList.filter (·.enabled)).map fun g => g.base.toNat).filter (start < ·)

theorem mem_startsAfter {s : State} {p : Profile} {start x : Nat} : x ∈ s.startsAfter p start
    ↔ (x = journalBase s.abase ∨ ∃ i, (getV p.regions i).enabled = true ∧ x = (getV p.regions i).base.toNat) ∧ start < x := by
  have hregion : (∃ g ∈ p.regions.toList, g.enabled = true ∧ g.base.toNat = x)
      ↔ ∃ i, (getV p.regions i).enabled = true ∧ x = (getV p.regions i).base.toNat := by
    have hany := any_toList_iff p.regions fun g => g.enabled && g.base.toNat == x
    simpa only [List.any_eq_true, Bool.and_eq_true, beq_iff_eq, eq_comm (a := x)] using hany
  rw [← hregion]
  simp [State.startsAfter, and_assoc]

theorem digestLimit_unformatted {s : State} (h : s.engine.state = .unformatted) (start : Nat) :
    s.digestLimit start = 2 ^ 36 := by
  simp only [State.digestLimit, h]

theorem digestLimit_inside {s : State} {p : Profile} {start : Nat} {g : Region} (h : s.engine.state = .quiesced)
    (hprofile : s.profile = some p) (hregion : p.regionAt start = some g) :
    s.digestLimit start = g.base.toNat + 2 ^ g.sizeExp.toNat := by
  simp only [State.digestLimit, h, hprofile, hregion]
  rfl

theorem digestLimit_outside {s : State} {p : Profile} {start : Nat} (h : s.engine.state = .quiesced)
    (hprofile : s.profile = some p) (hregion : p.regionAt start = none) :
    s.digestLimit start = (s.startsAfter p start).foldl min (2 ^ 36) := by
  simp only [State.digestLimit, h, hprofile, hregion]
  rfl

/-- What R173 says of the limit in QUIESCED. -/
theorem digestLimit_quiesced {s : State} {p : Profile} (start : Nat) (h : s.engine.state = .quiesced)
    (hprofile : s.profile = some p) :
    (∀ g, p.regionAt start = some g → s.digestLimit start = g.base.toNat + 2 ^ g.sizeExp.toNat)
    ∧ (p.regionAt start = none → s.digestLimit start ≤ 2 ^ 36
      ∧ (start < journalBase s.abase → s.digestLimit start ≤ journalBase s.abase)
      ∧ (∀ i, (getV p.regions i).enabled = true → start < (getV p.regions i).base.toNat →
          s.digestLimit start ≤ (getV p.regions i).base.toNat)
      ∧ (s.digestLimit start = 2 ^ 36 ∨ s.digestLimit start = journalBase s.abase ∧ start < s.digestLimit start
        ∨ ∃ i, (getV p.regions i).enabled = true ∧ s.digestLimit start = (getV p.regions i).base.toNat
          ∧ start < s.digestLimit start)) := by
  refine ⟨fun g hregion => digestLimit_inside h hprofile hregion, fun hregion => ?_⟩
  rw [digestLimit_outside h hprofile hregion]
  obtain ⟨htop, hall, hmem⟩ := foldl_min_spec (s.startsAfter p start) (2 ^ 36)
  refine ⟨htop, fun hlt => hall _ (mem_startsAfter.2 ⟨.inl rfl, hlt⟩),
    fun i hi hlt => hall _ (mem_startsAfter.2 ⟨.inr ⟨i, hi, rfl⟩, hlt⟩), hmem.imp_right fun hmem => ?_⟩
  obtain ⟨hjournal | ⟨i, hi, hbase⟩, hlt⟩ := mem_startsAfter.1 hmem
  · exact .inl ⟨hjournal, hlt⟩
  · exact .inr ⟨i, hi, hbase, hlt⟩

/-! ### DIGEST in an IDLE slot (R173) -/

/-- DIGEST's start, from ARG2 and ARG0 (R187). -/
def State.digestStart (s : State) : Nat := (getV s.mgmt.args 2).toNat * 2 ^ 32 + (getV s.mgmt.args 0).toNat

/-- DIGEST's length, from ARG1 (R187). -/
def State.digestLength (s : State) : Nat := if getV s.mgmt.args 1 = 0 then 2 ^ 32 else (getV s.mgmt.args 1).toNat

theorem digestArgs_eq (s : State) : s.digestArgs = (s.digestStart, s.digestLength) := by
  have hzero : (getV s.mgmt.args 1).toNat = 0 ↔ getV s.mgmt.args 1 = 0 := by rw [← BitVec.toNat_inj]; rfl
  simp only [State.digestArgs, State.digestStart, State.digestLength, hzero]

/-- DIGEST's start or length is out of its range (R173). -/
def BadDigest (start len : Nat) : Prop := start % 32 ≠ 0 ∨ 2 ^ 36 ≤ start ∨ len % 32 ≠ 0 ∨ len < 32 ∨ 2 ^ 32 < len

theorem badDigest_iff (start len : Nat) : badDigest start len = true ↔ BadDigest start len := by
  simp only [badDigest, BadDigest, Bool.or_eq_true, decide_eq_true_eq, or_assoc]

/-- The record of a digest that begins (R173). -/
def State.digestBegun (s : State) : DigestRecord :=
  { crc := 0xFFFFFFFF, start := s.digestStart, next := s.digestStart
    stop := min (s.digestStart + s.digestLength) (s.digestLimit s.digestStart), processed := 0 }

/-- The tests of DIGEST in their order. -/
theorem digest_eq (s : State) : s.digest
    = if ¬ (s.engine.state = .quiesced ∨ s.engine.state = .unformatted) then { s with mgmt := s.mgmt.answered 7 .wrongState }
      else if badDigest s.digestStart s.digestLength = true then { s with mgmt := s.mgmt.answered 7 .badArgument }
      else if s.engine.state = .quiesced ∧ s.inJournalArea s.digestStart = true then
        { s with mgmt := s.mgmt.answered 7 .journalArea }
      else { s with mgmt := s.mgmt.runs .digest, service := { s.service with digest := some s.digestBegun } } := by
  simp only [State.digest, digestArgs_eq, Bool.not_eq_true', Bool.or_eq_false_iff, decide_eq_false_iff_not, not_or,
    Bool.and_eq_true, decide_eq_true_eq]
  rfl

theorem digest_wrongState {s : State} (h : ¬ (s.engine.state = .quiesced ∨ s.engine.state = .unformatted)) :
    s.digest = { s with mgmt := s.mgmt.answered 7 .wrongState } := (digest_eq s).trans (if_pos h)

theorem digest_badArgument {s : State} (h : s.engine.state = .quiesced ∨ s.engine.state = .unformatted)
    (hbad : BadDigest s.digestStart s.digestLength) :
    s.digest = { s with mgmt := s.mgmt.answered 7 .badArgument } := by
  rw [digest_eq, if_neg (not_not_intro h), if_pos ((badDigest_iff _ _).2 hbad)]

theorem digest_journalArea {s : State} (h : s.engine.state = .quiesced) (hgood : ¬ BadDigest s.digestStart s.digestLength)
    (hjournal : s.inJournalArea s.digestStart = true) : s.digest = { s with mgmt := s.mgmt.answered 7 .journalArea } := by
  rw [digest_eq, if_neg (not_not_intro (.inl h)), if_neg (mt (badDigest_iff _ _).1 hgood), if_pos ⟨h, hjournal⟩]

theorem digest_runs {s : State} (h : s.engine.state = .quiesced ∨ s.engine.state = .unformatted)
    (hgood : ¬ BadDigest s.digestStart s.digestLength)
    (hfree : s.engine.state = .quiesced → s.inJournalArea s.digestStart = false) :
    s.digest = { s with mgmt := s.mgmt.runs .digest, service := { s.service with digest := some s.digestBegun } } := by
  rw [digest_eq, if_neg (not_not_intro h), if_neg (mt (badDigest_iff _ _).1 hgood),
    if_neg fun ⟨hstate, hjournal⟩ => Bool.false_ne_true ((hfree hstate).symm.trans hjournal)]

theorem digest_leads {s u : State} {P : State → Prop} (hlive : Live s) (hidle : s.mgmt.running = none)
    (hu : s.clearOut.digest = u) (hP : ∀ t, t.out = Outputs.none → Becomes t u → P t) : Leads .digest s P := by
  refine offered_leads (f := State.digest) rfl hlive hidle hu ?_ ?_ hP
  · rw [← hu]; simp
  · rw [← hu]; simp; rfl

/-! ### ABORT_DIGEST (R178) -/

theorem abortDigest_running {s : State} {d : DigestRecord} (hdigest : s.service.digest = some d)
    (hrun : s.mgmt.running = some .digest) : s.abortDigest = { s with
      service := { s.service with digest := none }
      mem := { s.mem with outstanding := ignoring Purpose.isDigestRead s.mem.outstanding }
      mgmt := ({ s.mgmt with digestResult := ~~~ d.crc, coveredBytes := d.processed }).ended .digest .aborted } := by
  have hrun' : (s.closeDigest d).mgmt.running = some .digest := hrun
  simp only [State.abortDigest, hdigest, Option.isSome_some, if_true, State.abortRunningDigest, endIf_eq,
    endsIf_running _ hrun']
  rfl

theorem abortDigest_other {s : State} (hdigest : s.service.digest = none) (hrun : s.mgmt.running.isSome) :
    s.abortDigest = s := by
  simp only [State.abortDigest, hdigest, hrun, Option.isSome_none, Bool.false_eq_true, if_false, if_true]

theorem abortDigest_idle {s : State} (hdigest : s.service.digest = none) (hrun : s.mgmt.running = none) :
    s.abortDigest = { s with mgmt := s.mgmt.answered 8 .wrongState } := by
  simp only [State.abortDigest, hdigest, hrun, Option.isSome_none, Bool.false_eq_true, if_false]
  rfl

theorem abortDigest_leads {s u : State} {P : State → Prop} (hlive : Live s) (hu : s.clearOut.abortDigest = u)
    (hP : ∀ t, t.out = Outputs.none → Becomes t u → P t) : Leads .abortDigest s P := by
  have hexec : exec .abortDigest s = .next u.finish := by
    rw [← hu]
    exact happen_next (f := State.abortDigest) hlive.1 rfl
  refine leads_of_next hlive hexec ?_ ?_ fun t ht hout => hP t hout ht
  · rw [← hu]; simp
  · rw [← hu]; simp; rfl

/-- Settles O47: the checks of DIGEST in order and its range; ABORT_DIGEST with a DIGEST, with another command and without one. -/
theorem digestAndAbortDigest : Obligations.DigestAndAbortDigest := by
  unfold Obligations.DigestAndAbortDigest
  refine ⟨fun s hlive hidle => ?_, fun s hlive => ⟨fun d hdigest hrun => ?_, fun hdigest hrun => ?_, fun hdigest hrun => ?_⟩⟩
  · refine ⟨fun hquiesced hunformatted => ?_, fun hstate hbad => ?_, fun hstate hgood hjournal => ?_, fun hstate hgood => ?_⟩
    · exact digest_leads hlive hidle (digest_wrongState (s := s.clearOut) (not_or.2 ⟨hquiesced, hunformatted⟩))
        fun t hout ht => ⟨hout, ht⟩
    · exact digest_leads hlive hidle (digest_badArgument (s := s.clearOut) hstate hbad) fun t hout ht => ⟨hout, ht⟩
    · exact digest_leads hlive hidle (digest_journalArea (s := s.clearOut) hstate hgood hjournal) fun t hout ht => ⟨hout, ht⟩
    · have htaken : s.engine.state = .quiesced ∨ s.engine.state = .unformatted := hstate.symm.imp_left And.left
      have hfree (hquiesced : s.engine.state = .quiesced) : s.inJournalArea s.digestStart = false := by
        rcases hstate with hunformatted | ⟨-, hfree, -⟩
        · rw [hquiesced] at hunformatted; cases hunformatted
        · exact hfree
      exact digest_leads hlive hidle (digest_runs (s := s.clearOut) htaken hgood hfree) fun t hout ht =>
        ⟨hout, s.digestLimit s.digestStart, ht, fun hunformatted => digestLimit_unformatted hunformatted _,
          fun p hquiesced hprofile => digestLimit_quiesced _ hquiesced hprofile⟩
  · exact abortDigest_leads hlive (abortDigest_running (s := s.clearOut) hdigest hrun) fun t hout ht => ⟨hout, ht⟩
  · exact abortDigest_leads hlive (abortDigest_other (s := s.clearOut) hdigest hrun) fun t hout ht => ⟨hout, ht⟩
  · exact abortDigest_leads hlive (abortDigest_idle (s := s.clearOut) hdigest hrun) fun t hout ht => ⟨hout, ht⟩

end Sys2Proof.Machine
end

section
/-! The status registers show the state (O52). -/

namespace Sys2Proof.Machine

/-! ### The codes and the words of an event record (R179, R187) -/

theorem declineReason_code_lt (r : DeclineReason) : r.code < 16 := by cases r <;> decide

theorem discardReason_code_lt (r : DiscardReason) : r.code < 16 := by cases r <;> decide

theorem faultCause_code_lt (c : FaultCause) : c.code < 8 := by cases c <;> decide

theorem engineState_code_lt (e : EngineState) : e.code < 8 := by cases e <;> decide

theorem result_code_lt (r : Result) : r.code < 16 := by cases r <;> decide

theorem word0_decline (st : Stream) (a : Addr) (r : DeclineReason) (tag : Fin 4) : (Event.decline st a r tag).word0.toNat
    = 1 + (2 ^ 4 * st.val + 2 ^ 7 + 2 ^ 8 * r.code + 2 ^ 24 * (a.toNat / 2 ^ 32) + 2 ^ 28) := by
  have hcode := declineReason_code_lt r
  have haddr := a.isLt
  simp only [Event.word0, BitVec.toNat_ofNat]
  omega

theorem word3_decline (st : Stream) (a : Addr) (r : DeclineReason) (tag : Fin 4) :
    (Event.decline st a r tag).word3.toNat = tag.val := by
  simp only [Event.word3, BitVec.toNat_ofNat]
  omega

theorem word0_groupDiscarded (st : Stream) (g : Word) (r : DiscardReason) : (Event.groupDiscarded st g r).word0.toNat
    = 2 + (2 ^ 4 * st.val + 2 ^ 7 + 2 ^ 8 * r.code) := by
  have hcode := discardReason_code_lt r
  simp only [Event.word0, BitVec.toNat_ofNat]
  omega

theorem word0_fault (c : FaultCause) : (Event.fault c).word0.toNat = 3 + 2 ^ 8 * c.code := by
  have hcode := faultCause_code_lt c
  simp only [Event.word0, BitVec.toNat_ofNat]
  omega

theorem toNat_code (e : EngineState) : (BitVec.ofNat 32 e.code).toNat = e.code := by
  have hcode := engineState_code_lt e
  simp only [BitVec.toNat_ofNat]
  omega

theorem word3_commandDone (c : Byte) (r : Result) : (Event.commandDone c r).word3.toNat = c.toNat + 2 ^ 8 * r.code := by
  have hcode := result_code_lt r
  simp only [Event.word3, BitVec.toNat_ofNat]
  omega

/-! ### The engine register (R187) -/

/-- The cause set as a number, cause code k at bit k − 1. -/
def causeMask (causes : List FaultCause) : Nat :=
  bit (FaultCause.journalWrite ∈ causes) + 2 * bit (FaultCause.applyWrite ∈ causes)
    + 4 * bit (FaultCause.checkpointWrite ∈ causes) + 8 * bit (FaultCause.recoveryRead ∈ causes)
    + 16 * bit (FaultCause.recoveryMismatch ∈ causes) + 32 * bit (FaultCause.replayWrite ∈ causes)

theorem bit_le (b : Bool) : bit b ≤ 1 := by cases b <;> decide

theorem decide_bit (b : Bool) : decide (bit b = 1) = b := by cases b <;> decide

/-- The cause set's number has six bits, one for each cause. -/
theorem causeMask_bits (causes : List FaultCause) : causeMask causes < 64
    ∧ ∀ c : FaultCause, causeMask causes * 2 ^ 8 / 2 ^ (7 + c.code) % 2 = bit (c ∈ causes) := by
  have hle (c : FaultCause) : bit (c ∈ causes) ≤ 1 := bit_le _
  have hjournal := hle .journalWrite
  have happly := hle .applyWrite
  have hckpt := hle .checkpointWrite
  have hread := hle .recoveryRead
  have hmismatch := hle .recoveryMismatch
  have hreplay := hle .replayWrite
  unfold causeMask
  refine ⟨by omega, fun c => ?_⟩
  cases c
  all_goals
    simp only [FaultCause.code]
    omega

/-- A sum over the entries that a test picks. -/
theorem foldl_filter_add {α : Type} (f : α → Nat) (p : α → Bool) (l : List α) (n : Nat) :
    (l.filter p).foldl (fun n c => n + f c) n = n + (l.map fun c => f c * bit (p c)).sum := by
  induction l generalizing n with
  | nil => rfl
  | cons c l ih =>
    cases h : p c
    · simp [h, ih, bit]
    · simp [h, ih, bit, Nat.add_assoc]

theorem foldl_causes (causes : List FaultCause) :
    (allCauses.filter (· ∈ causes)).foldl (fun n c => n + 2 ^ (7 + c.code)) 0 = 2 ^ 8 * causeMask causes := by
  rw [foldl_filter_add]
  simp only [allCauses, List.map_cons, List.map_nil, List.sum_cons, List.sum_nil, FaultCause.code, causeMask]
  omega

theorem firstCause_code_lt (c : Option FaultCause) : c.elim 0 FaultCause.code < 8 := by
  cases c with
  | none => decide
  | some c => exact faultCause_code_lt c

/-- The number the engine register shows, field by field. -/
def State.engineNumber (s : State) : Nat :=
  s.engine.state.code + 2 ^ 4 * (s.engine.firstCause.elim 0 FaultCause.code) + 2 ^ 8 * causeMask s.engine.causes
    + 2 ^ 16 * bit s.engine.quiescePending + 2 ^ 17 * bit s.service.digest.isSome

theorem engineRegister_eq (s : State) : s.engineRegister = BitVec.ofNat 32 s.engineNumber := by
  rw [State.engineRegister, foldl_causes]
  rfl

/-- Each field of the engine register read back from its number; the fields do not overlap and nothing stands between them. -/
theorem engineNumber_fields (s : State) : s.engineNumber < 2 ^ 18
    ∧ s.engineNumber % 2 ^ 4 = s.engine.state.code
    ∧ s.engineNumber / 2 ^ 4 % 2 ^ 4 = s.engine.firstCause.elim 0 FaultCause.code
    ∧ s.engineNumber / 2 ^ 8 % 2 ^ 8 = causeMask s.engine.causes
    ∧ s.engineNumber / 2 ^ 16 % 2 = bit s.engine.quiescePending
    ∧ s.engineNumber / 2 ^ 17 % 2 = bit s.service.digest.isSome := by
  have hstate := engineState_code_lt s.engine.state
  have hfirst := firstCause_code_lt s.engine.firstCause
  obtain ⟨hcauses, -⟩ := causeMask_bits s.engine.causes
  have hquiesce := bit_le s.engine.quiescePending
  have hdigest := bit_le s.service.digest.isSome
  unfold State.engineNumber
  omega

/-- What the engine register shows (R187). -/
theorem engineRegister_shows (s : State) : s.engineRegister.toNat % 8 = s.engine.state.code
    ∧ s.engineRegister.toNat / 16 % 8 = s.engine.firstCause.elim 0 FaultCause.code
    ∧ (∀ c : FaultCause, s.engineRegister.getLsbD (7 + c.code) = true ↔ c ∈ s.engine.causes)
    ∧ s.engineRegister.getLsbD 16 = s.engine.quiescePending
    ∧ s.engineRegister.getLsbD 17 = s.service.digest.isSome
    ∧ ∀ i, i = 3 ∨ i = 7 ∨ i = 14 ∨ i = 15 ∨ 18 ≤ i → s.engineRegister.getLsbD i = false := by
  obtain ⟨hlt, hstate, hfirst, hcauses, hquiesce, hdigest⟩ := engineNumber_fields s
  have hstate_lt := engineState_code_lt s.engine.state
  have hfirst_lt := firstCause_code_lt s.engine.firstCause
  obtain ⟨hcauses_lt, hcause⟩ := causeMask_bits s.engine.causes
  have hnumber : s.engineRegister.toNat = s.engineNumber := by
    rw [engineRegister_eq, BitVec.toNat_ofNat, Nat.mod_eq_of_lt (by omega)]
  have hbit (i : Nat) : s.engineRegister.getLsbD i = decide (s.engineNumber / 2 ^ i % 2 = 1) := by
    rw [BitVec.getLsbD, hnumber, Nat.testBit_eq_decide_div_mod_eq]
  refine ⟨by omega, by omega, fun c => ?_, ?_, ?_, fun i hi => ?_⟩
  · have hplace : s.engineNumber / 2 ^ (7 + c.code) % 2 = causeMask s.engine.causes * 2 ^ 8 / 2 ^ (7 + c.code) % 2 := by
      cases c
      all_goals
        simp only [FaultCause.code]
        omega
    rw [hbit, hplace, hcause, decide_bit, decide_eq_true_eq]
  · rw [hbit, hquiesce, decide_bit]
  · rw [hbit, hdigest, decide_bit]
  · rw [hbit, decide_eq_false_iff_not]
    rcases hi with rfl | rfl | rfl | rfl | hi
    · omega
    · omega
    · omega
    · omega
    · have hpow : 2 ^ 18 ≤ 2 ^ i := Nat.pow_le_pow_right (by decide) hi
      rw [Nat.div_eq_of_lt (hlt.trans_le hpow)]
      decide

/-! ### The register window (R176, R187) -/

theorem readRegister_unused {s : State} {n : BitVec 6} (h : 0x1D ≤ n.toNat) : s.readRegister n = 0 := by
  unfold State.readRegister
  split
  rotate_right
  · rfl
  all_goals omega

theorem readRegister_command_lt (s : State) : (s.readRegister 0x02).toNat < 256 := by
  have hlt := (Config.commandRead s.freeCount).isLt
  change ((Config.commandRead s.freeCount).setWidth 32).toNat < 256
  rw [BitVec.toNat_setWidth]
  omega

theorem readRegister_intEnable (s : State) : (s.readRegister 0x0D).toNat = s.mgmt.intEnable.toNat := by
  have hlt := s.mgmt.intEnable.isLt
  change (s.mgmt.intEnable.setWidth 32).toNat = _
  rw [BitVec.toNat_setWidth]
  omega

theorem readRegister_select (s : State) : (s.readRegister 0x16).toNat
    = (if s.mgmt.selectActive then 1 else 0) + 16 * s.mgmt.selectItem.toNat := by
  have hlt := s.mgmt.selectItem.isLt
  have hbit := bit_le s.mgmt.selectActive
  change (BitVec.ofNat 32 (bit s.mgmt.selectActive + 2 ^ 4 * s.mgmt.selectItem.toNat)).toNat
    = bit s.mgmt.selectActive + 16 * s.mgmt.selectItem.toNat
  rw [BitVec.toNat_ofNat]
  omega

theorem readRegister_arg (s : State) (i : Fin 4) : s.readRegister (BitVec.ofNat 6 (3 + i.val)) = getV s.mgmt.args i := by
  match i with
  | 0 | 1 | 2 | 3 => rfl

theorem readRegister_event0 (s : State) : s.readRegister 0x09 = s.mgmt.events.head?.elim 0 Event.word0 := by
  change (match s.mgmt.events with | [] => 0 | e :: _ => e.word0) = _
  cases s.mgmt.events <;> rfl

theorem readRegister_result (s : State) : s.readRegister 0x07 = BitVec.ofNat 32 (s.mgmt.result.code.toNat
    + 2 ^ 8 * s.mgmt.result.result.code + (if s.mgmt.result.overrun then 2 ^ 15 else 0) + 2 ^ 16 * s.mgmt.result.item.toNat
    + 2 ^ 24 * s.mgmt.result.test.toNat) := by
  have hoverrun : 2 ^ 15 * bit s.mgmt.result.overrun = if s.mgmt.result.overrun then 2 ^ 15 else 0 := by
    cases s.mgmt.result.overrun <;> rfl
  rw [← hoverrun]
  rfl

theorem profileData_eq (s : State) (w : Fin 4) : s.profileData w = if s.mgmt.selectActive
    then s.profile.elim 0 (·.word s.mgmt.selectItem w) else s.engine.staging.word s.mgmt.selectItem w := by
  unfold State.profileData State.shownProfile
  cases s.mgmt.selectActive
  · rfl
  · cases s.profile <;> rfl

theorem readRegister_profileData (s : State) (w : Fin 4) : s.readRegister (BitVec.ofNat 6 (0x17 + w.val)) = s.profileData w := by
  match w with
  | 0 | 1 | 2 | 3 => rfl

/-- Settles O52: the codes, the words of each kind of event record, and the registers. -/
theorem statusRegistersShowTheState : Obligations.StatusRegistersShowTheState := by
  unfold Obligations.StatusRegistersShowTheState
  refine ⟨⟨rfl, rfl, rfl, rfl, rfl, rfl⟩, ⟨fun st a r tag => ?_, fun st g r => ?_, fun c => ?_, fun e => ?_, fun n => ?_,
    fun e => ?_, fun crc => ?_, fun c r => ?_⟩, fun s => ?_⟩
  · exact ⟨rfl, word0_decline st a r tag, rfl, BitVec.toNat_setWidth 32 a, word3_decline st a r tag⟩
  · exact ⟨rfl, word0_groupDiscarded st g r, rfl, rfl, rfl⟩
  · exact ⟨rfl, word0_fault c, rfl, rfl, rfl⟩
  · exact ⟨rfl, rfl, rfl, rfl, toNat_code e⟩
  · exact ⟨rfl, rfl, rfl, rfl, rfl⟩
  · exact ⟨rfl, rfl, rfl, rfl, toNat_code e⟩
  · exact ⟨rfl, rfl, rfl, rfl, rfl⟩
  · exact ⟨rfl, rfl, rfl, rfl, word3_commandDone c r⟩
  · obtain ⟨hstate, hfirst, hcauses, hquiesce, hdigest, hzero⟩ := engineRegister_shows s
    have hdata (w : Fin 4) := (readRegister_profileData s w).trans (profileData_eq s w)
    exact ⟨rfl, rfl, rfl, rfl, rfl, rfl, rfl, rfl, rfl, rfl, rfl, hstate, hfirst, hcauses, hquiesce, hdigest, hzero,
      readRegister_command_lt s, readRegister_arg s, readRegister_result s, result_code_lt _, readRegister_event0 s,
      rfl, rfl, rfl, readRegister_intEnable s, readRegister_select s, hdata, fun n hn => readRegister_unused hn⟩

end Sys2Proof.Machine
end

section
/-! SUPPORT. Events of the command slot and the management port. -/

namespace Sys2Proof.Machine

/-- An event of the running part that leaves the ports as they are, with what it puts out. -/
theorem event_leads {c : Instr} {s : State} {f : State → State} {P : State → Prop} (hexec : exec c s = happen s true f)
    (hlive : Live s) (hports : (f s.clearOut).ports = s.ports)
    (hP : ∀ t, t.out = (f s.clearOut).out → Becomes t (f s.clearOut) → P t) : Leads c s P :=
  leads_quiet hexec hlive.1 rfl rfl (noReadyFront_of_ports hlive.2 hports) fun t ht hout => hP t hout ht

end Sys2Proof.Machine
end

section
/-! A command offered to a running slot (O39). -/

namespace Sys2Proof.Machine

/-- A code that is none of the nine known ones is offered as UNKNOWN_COMMAND (R177). -/
theorem offerCode_unknown {code : Byte} (h : unknownCode code = true) (s : State) :
    s.offerCode code = s.offer (State.unknown · code) := by
  have hcode : code.toNat = 0 ∨ 9 < code.toNat := by
    simpa [unknownCode, BitVec.toNat_eq] using h
  unfold State.offerCode
  split
  rotate_right
  · rfl
  all_goals omega

theorem exec_unknownCommand {code : Byte} (h : unknownCode code = true) (s : State) :
    exec (.unknownCommand code) s = happen s true (State.offer · (State.unknown · code)) :=
  congrArg (happen s true) (funext (offerCode_unknown h))

/-- A command offered while another runs sets the overrun flag alone (R177). -/
theorem overrun_leads {c : Instr} {s : State} {f : State → State} (hexec : exec c s = happen s true (State.offer · f))
    (hlive : Live s) (hbusy : s.mgmt.running.isSome) : Leads c s fun t => t.out = Outputs.none
      ∧ Becomes t { s with mgmt := { s.mgmt with result := { s.mgmt.result with overrun := true } } } := by
  have hoffer : s.clearOut.offer f
      = { s.clearOut with mgmt := { s.mgmt with result := { s.mgmt.result with overrun := true } } } := if_pos hbusy
  refine event_leads hexec hlive ?_ fun t hout ht => ?_
  · rw [hoffer]; rfl
  · rw [hoffer] at hout ht
    exact ⟨hout, ht⟩

/-- Settles O39: the commands that a running slot drops, each by its row, and an unknown code in an IDLE slot. -/
theorem busySlotDropsCommands : Obligations.BusySlotDropsCommands := by
  unfold Obligations.BusySlotDropsCommands
  refine fun s c hlive => ⟨fun hbusy hc => ?_, fun code hcode hidle hc => ?_⟩
  · rcases hc with rfl | rfl | rfl | rfl | rfl | rfl | rfl | ⟨code, hcode, rfl⟩
    · exact overrun_leads (f := State.quiesce) rfl hlive hbusy
    · exact overrun_leads (f := State.resume) rfl hlive hbusy
    · exact overrun_leads (f := State.discardOpen) rfl hlive hbusy
    · exact overrun_leads (f := State.clearFault) rfl hlive hbusy
    · exact overrun_leads (f := State.format) rfl hlive hbusy
    · exact overrun_leads (f := State.digest) rfl hlive hbusy
    · exact overrun_leads (f := State.stageFromActive) rfl hlive hbusy
    · exact overrun_leads (exec_unknownCommand hcode s) hlive hbusy
  · rw [hc]
    exact offered_leads (exec_unknownCommand hcode s) hlive hidle rfl rfl rfl fun t hout ht => ⟨hout, ht⟩

end Sys2Proof.Machine
end

section
/-! SUPPORT. Fields of a word under a mask, and addresses written in two parts. -/

namespace Sys2Proof.Machine

/-- A mask whose lowest field has `a` bits picks that field, and its other fields of what stands `k` bits higher. -/
theorem and_fields (x m : Nat) {a k : Nat} (hak : a ≤ k) :
    x &&& (2 ^ a - 1 + 2 ^ k * m) = x % 2 ^ a + 2 ^ k * (x / 2 ^ k &&& m) := by
  have hlow : 2 ^ a - 1 < 2 ^ k := (Nat.sub_lt (Nat.two_pow_pos a) Nat.one_pos).trans_le (Nat.pow_le_pow_right (by decide) hak)
  have hmod : (x &&& (2 ^ a - 1 + 2 ^ k * m)) % 2 ^ k = x % 2 ^ a := by
    rw [Nat.and_mod_two_pow, Nat.add_mul_mod_self_left, Nat.mod_eq_of_lt hlow, Nat.and_two_pow_sub_one_eq_mod,
      Nat.mod_mod_of_dvd _ (Nat.pow_dvd_pow 2 hak)]
  have hdiv : (x &&& (2 ^ a - 1 + 2 ^ k * m)) / 2 ^ k = x / 2 ^ k &&& m := by
    rw [Nat.and_div_two_pow, Nat.add_mul_div_left _ _ (Nat.two_pow_pos k), Nat.div_eq_of_lt hlow, Nat.zero_add]
  rw [← hmod, ← hdiv, Nat.mod_add_div]

/-- A mask of one field. -/
theorem and_field (x a : Nat) : x &&& (2 ^ a - 1) = x % 2 ^ a := Nat.and_two_pow_sub_one_eq_mod x a

/-- Bit `i` of a word as a number. -/
theorem bit_getLsbD {w : Nat} (v : BitVec w) (i : Nat) : bit (v.getLsbD i) = v.toNat / 2 ^ i % 2 := by
  rw [BitVec.getLsbD, Nat.testBit_eq_decide_div_mod_eq]
  rcases Nat.mod_two_eq_zero_or_one (v.toNat / 2 ^ i) with h | h
  · rw [h]; rfl
  · rw [h]; rfl

/-! ### An address in two parts (R187) -/

theorem setWidth_lowWord (a : Addr) (v : Word) : (lowWord a v).setWidth 32 = v := by
  have hlt := a.isLt
  apply BitVec.eq_of_toNat_eq
  rw [lowWord, BitVec.toNat_setWidth, BitVec.toNat_ofNat]
  omega

theorem div_lowWord (a : Addr) (v : Word) : (lowWord a v).toNat / 2 ^ 32 = a.toNat / 2 ^ 32 := by
  have hlt := a.isLt
  rw [lowWord, BitVec.toNat_ofNat]
  omega

theorem setWidth_highBits (a : Addr) (v : BitVec 4) : (highBits a v).setWidth 32 = a.setWidth 32 := by
  have hlt := v.isLt
  apply BitVec.eq_of_toNat_eq
  rw [highBits, BitVec.toNat_setWidth, BitVec.toNat_setWidth, BitVec.toNat_ofNat]
  omega

theorem div_highBits (a : Addr) (v : BitVec 4) : (highBits a v).toNat / 2 ^ 32 = v.toNat := by
  have hlt := v.isLt
  rw [highBits, BitVec.toNat_ofNat]
  omega

end Sys2Proof.Machine
end

section
/-! The profile data words read back (O49). -/

namespace Sys2Proof.Machine

/-! ### The words of one entry -/

/-- The data words of a region (R187). -/
def Region.shown (g : Region) (w : Fin 4) : Word :=
  match w with
  | 0 => g.base.setWidth 32
  | 1 => BitVec.ofNat 32 (g.base.toNat / 2 ^ 32)
  | 2 => BitVec.ofNat 32 (g.sizeExp.toNat + 2 ^ 8 * bit g.enabled + 2 ^ 16 * g.mask.toNat)
  | _ => 0

/-- The data words of a stream entry (R187). -/
def StreamEntry.shown (e : StreamEntry) (w : Fin 4) : Word :=
  match w with
  | 0 => e.commitWord.setWidth 32
  | 1 => BitVec.ofNat 32 (e.commitWord.toNat / 2 ^ 32 + 2 ^ 16 * (e.cancelWord.toNat / 2 ^ 32))
  | 2 => e.cancelWord.setWidth 32
  | _ => BitVec.ofNat 32 (bit e.enabled + 2 * bit e.cancelPresent + 2 ^ 8 * e.entryLimit.toNat)

/-- The bits of a region's data words that hold a field (R187). -/
def regionMask (w : Fin 4) : Word :=
  match w with
  | 0 => 0xFFFFFFFF
  | 1 => 0xF
  | 2 => 0xFF013F
  | _ => 0

/-- The bits of a stream's data words that hold a field (R187). -/
def streamMask (w : Fin 4) : Word :=
  match w with
  | 0 => 0xFFFFFFFF
  | 1 => 0xF000F
  | 2 => 0xFFFFFFFF
  | _ => 0x7F03

theorem region_store_same (g : Region) (w : Fin 4) (v : Word) : (g.store w v).shown w = v &&& regionMask w := by
  match w with
  | 0 => exact (setWidth_lowWord g.base v).trans BitVec.and_allOnes.symm
  | 1 =>
    apply BitVec.eq_of_toNat_eq
    change (BitVec.ofNat 32 ((highBits g.base (v.setWidth 4)).toNat / 2 ^ 32)).toNat = v.toNat &&& (2 ^ 4 - 1)
    rw [and_field, div_highBits, BitVec.toNat_setWidth, BitVec.toNat_ofNat]
    omega
  | 2 =>
    have hsize := (v.setWidth 6).isLt
    have henabled := bit_le (v.getLsbD 8)
    have hmask := ((v >>> 16).setWidth 8).isLt
    apply BitVec.eq_of_toNat_eq
    change (BitVec.ofNat 32 ((v.setWidth 6).toNat + 2 ^ 8 * bit (v.getLsbD 8) + 2 ^ 16 * ((v >>> 16).setWidth 8).toNat)).toNat
      = v.toNat &&& (2 ^ 6 - 1 + 2 ^ 8 * (2 ^ 1 - 1 + 2 ^ 8 * (2 ^ 8 - 1)))
    rw [and_fields _ _ (by decide), and_fields _ _ (by decide), and_field, Nat.div_div_eq_div_mul, BitVec.toNat_ofNat,
      Nat.mod_eq_of_lt (by omega), bit_getLsbD, BitVec.toNat_setWidth, BitVec.toNat_setWidth,
      BitVec.toNat_ushiftRight, Nat.shiftRight_eq_div_pow]
    omega
  | 3 => exact BitVec.and_zero.symm

theorem region_store_other (g : Region) {w u : Fin 4} (v : Word) (h : u ≠ w) : (g.store w v).shown u = g.shown u := by
  match w, u with
  | 0, 0 | 1, 1 | 2, 2 | 3, 3 => exact absurd rfl h
  | 0, 1 | 0, 2 | 0, 3 | 1, 0 | 1, 2 | 1, 3 | 2, 0 | 2, 1 | 2, 3 | 3, 0 | 3, 1 | 3, 2 =>
    simp only [Region.store, Region.shown, div_lowWord, setWidth_highBits]

theorem stream_store_same (e : StreamEntry) (w : Fin 4) (v : Word) : (e.store w v).shown w = v &&& streamMask w := by
  match w with
  | 0 => exact (setWidth_lowWord e.commitWord v).trans BitVec.and_allOnes.symm
  | 1 =>
    apply BitVec.eq_of_toNat_eq
    change (BitVec.ofNat 32 ((highBits e.commitWord (v.setWidth 4)).toNat / 2 ^ 32
      + 2 ^ 16 * ((highBits e.cancelWord ((v >>> 16).setWidth 4)).toNat / 2 ^ 32))).toNat
      = v.toNat &&& (2 ^ 4 - 1 + 2 ^ 16 * (2 ^ 4 - 1))
    rw [and_fields _ _ (by decide), and_field, div_highBits, div_highBits, BitVec.toNat_setWidth, BitVec.toNat_setWidth,
      BitVec.toNat_ushiftRight, Nat.shiftRight_eq_div_pow, BitVec.toNat_ofNat]
    omega
  | 2 => exact (setWidth_lowWord e.cancelWord v).trans BitVec.and_allOnes.symm
  | 3 =>
    apply BitVec.eq_of_toNat_eq
    change (BitVec.ofNat 32 (bit (v.getLsbD 0) + 2 * bit (v.getLsbD 1) + 2 ^ 8 * ((v >>> 8).setWidth 7).toNat)).toNat
      = v.toNat &&& (2 ^ 1 - 1 + 2 ^ 1 * (2 ^ 1 - 1 + 2 ^ 7 * (2 ^ 7 - 1)))
    rw [and_fields _ _ (by decide), and_fields _ _ (by decide), and_field, bit_getLsbD, bit_getLsbD, BitVec.toNat_ofNat,
      BitVec.toNat_setWidth, BitVec.toNat_ushiftRight, Nat.shiftRight_eq_div_pow]
    omega

theorem stream_store_other (e : StreamEntry) {w u : Fin 4} (v : Word) (h : u ≠ w) : (e.store w v).shown u = e.shown u := by
  match w, u with
  | 0, 0 | 1, 1 | 2, 2 | 3, 3 => exact absurd rfl h
  | 0, 1 | 0, 2 | 0, 3 | 1, 0 | 1, 2 | 1, 3 | 2, 0 | 2, 1 | 2, 3 | 3, 0 | 3, 1 | 3, 2 =>
    simp only [StreamEntry.store, StreamEntry.shown, div_lowWord, setWidth_highBits]

/-! ### The items of a profile (R187) -/

/-- Item 0 is the limits, 1 to 6 the regions, 7 to 14 the streams; 15 is unused. -/
theorem item_cases (item : BitVec 4) : item = 0 ∨ (∃ i : Fin 6, item.toNat = i.val + 1)
    ∨ (∃ j : Fin 8, item.toNat = j.val + 7) ∨ item = 15 := by
  have hlt := item.isLt
  by_cases hzero : item = 0
  · exact .inl hzero
  have hpos : item.toNat ≠ 0 := fun h => hzero (BitVec.eq_of_toNat_eq h)
  by_cases hregion : item.toNat < 7
  · exact .inr (.inl ⟨⟨item.toNat - 1, by omega⟩, by dsimp only; omega⟩)
  by_cases hstream : item.toNat < 15
  · exact .inr (.inr (.inl ⟨⟨item.toNat - 7, by omega⟩, by dsimp only; omega⟩))
  · exact .inr (.inr (.inr (BitVec.eq_of_toNat_eq (by change item.toNat = 15; omega))))

section
variable {item : BitVec 4} (p : Profile) (w : Fin 4) (v : Word)

theorem word_region {i : Fin 6} (h : item.toNat = i.val + 1) : p.word item w = (getV p.regions i).shown w := by
  have hi : (⟨item.toNat - 1, by omega⟩ : Fin 6) = i := Fin.ext (by dsimp only; omega)
  unfold Profile.word
  rw [if_neg (by omega), dif_pos (by omega), hi]
  rfl

theorem store_region {i : Fin 6} (h : item.toNat = i.val + 1) :
    p.store item w v = { p with regions := setV p.regions i ((getV p.regions i).store w v) } := by
  have hi : (⟨item.toNat - 1, by omega⟩ : Fin 6) = i := Fin.ext (by dsimp only; omega)
  unfold Profile.store
  rw [if_neg (by omega), dif_pos (by omega), hi]

theorem word_stream {j : Fin 8} (h : item.toNat = j.val + 7) : p.word item w = (getV p.streams j).shown w := by
  have hj : (⟨item.toNat - 7, by omega⟩ : Fin 8) = j := Fin.ext (by dsimp only; omega)
  unfold Profile.word
  rw [if_neg (by omega), dif_neg (by omega), dif_pos (by omega), hj]
  rfl

theorem store_stream {j : Fin 8} (h : item.toNat = j.val + 7) :
    p.store item w v = { p with streams := setV p.streams j ((getV p.streams j).store w v) } := by
  have hj : (⟨item.toNat - 7, by omega⟩ : Fin 8) = j := Fin.ext (by dsimp only; omega)
  unfold Profile.store
  rw [if_neg (by omega), dif_neg (by omega), dif_pos (by omega), hj]

end

/-- The fields that an item's words show are the same in both profiles. -/
structure Profile.SameItem (p q : Profile) (item : BitVec 4) : Prop where
  limits : item = 0 → p.holdLimit = q.holdLimit ∧ p.openReserve = q.openReserve
  region : ∀ i : Fin 6, item.toNat = i.val + 1 → getV p.regions i = getV q.regions i
  stream : ∀ j : Fin 8, item.toNat = j.val + 7 → getV p.streams j = getV q.streams j

theorem Profile.SameItem.word_eq {p q : Profile} {item : BitVec 4} (h : p.SameItem q item) (w : Fin 4) :
    p.word item w = q.word item w := by
  rcases item_cases item with rfl | ⟨i, hi⟩ | ⟨j, hj⟩ | rfl
  · obtain ⟨hhold, hreserve⟩ := h.limits rfl
    match w with
    | 0 => exact congrArg (BitVec.setWidth 32) hhold
    | 1 => exact congrArg (BitVec.setWidth 32) hreserve
    | 2 | 3 => rfl
  · rw [word_region p w hi, word_region q w hi, h.region i hi]
  · rw [word_stream p w hj, word_stream q w hj, h.stream j hj]
  · rfl

/-- A write to a data word leaves the other items as they are. -/
theorem sameItem_store (p : Profile) {item other : BitVec 4} (w : Fin 4) (v : Word) (h : other ≠ item) :
    (p.store item w v).SameItem p other := by
  have hne : other.toNat ≠ item.toNat := fun e => h (BitVec.eq_of_toNat_eq e)
  rcases item_cases item with rfl | ⟨i, hi⟩ | ⟨j, hj⟩ | rfl
  · match w with
    | 0 | 1 | 2 | 3 => exact ⟨fun hzero => absurd hzero h, fun _ _ => rfl, fun _ _ => rfl⟩
  · rw [store_region p w v hi]
    exact ⟨fun _ => ⟨rfl, rfl⟩, fun o ho => getV_setV_other _ _ _ _ (by rintro rfl; omega), fun _ _ => rfl⟩
  · rw [store_stream p w v hj]
    exact ⟨fun _ => ⟨rfl, rfl⟩, fun _ _ => rfl, fun o ho => getV_setV_other _ _ _ _ (by rintro rfl; omega)⟩
  · exact ⟨fun _ => ⟨rfl, rfl⟩, fun _ _ => rfl, fun _ _ => rfl⟩

/-! ### The limits (R187) -/

/-- The bits of item 0's data words that hold a field (R187). -/
def limitMask (w : Fin 4) : Word :=
  match w with
  | 0 => 0xFFFF
  | 1 => 0xFF
  | _ => 0

theorem limits_store_same (p : Profile) (w : Fin 4) (v : Word) : (p.store 0 w v).word 0 w = v &&& limitMask w := by
  match w with
  | 0 =>
    apply BitVec.eq_of_toNat_eq
    change ((v.setWidth 16).setWidth 32).toNat = v.toNat &&& (2 ^ 16 - 1)
    rw [and_field, BitVec.toNat_setWidth, BitVec.toNat_setWidth]
    omega
  | 1 =>
    apply BitVec.eq_of_toNat_eq
    change ((v.setWidth 8).setWidth 32).toNat = v.toNat &&& (2 ^ 8 - 1)
    rw [and_field, BitVec.toNat_setWidth, BitVec.toNat_setWidth]
    omega
  | 2 | 3 => exact BitVec.and_zero.symm

theorem limits_store_other (p : Profile) {w u : Fin 4} (v : Word) (h : u ≠ w) : (p.store 0 w v).word 0 u = p.word 0 u := by
  match w, u with
  | 0, 0 | 1, 1 => exact absurd rfl h
  | 0, 1 | 0, 2 | 0, 3 | 1, 0 | 1, 2 | 1, 3 | 2, _ | 3, _ => rfl

/-- Settles O49: the written word and the item's other words, by the kind of the item; the other items keep their fields. -/
theorem profileDataWordsReadBack : Obligations.ProfileDataWordsReadBack := by
  unfold Obligations.ProfileDataWordsReadBack
  refine fun p item w u v => ⟨?_, fun hne => ?_, fun other hother => (sameItem_store p w v hother).word_eq u⟩
  · rcases item_cases item with rfl | ⟨i, hi⟩ | ⟨j, hj⟩ | rfl
    · exact limits_store_same p w v
    · have hlimits : item ≠ 0 := by rintro rfl; simp at hi
      have hunused : item ≠ 15 := by rintro rfl; change 15 = _ at hi; omega
      rw [if_neg hunused, if_neg hlimits, if_pos (by omega), store_region p w v hi, word_region _ w hi, getV_setV_same]
      exact region_store_same _ w v
    · have hlimits : item ≠ 0 := by rintro rfl; simp at hj
      have hunused : item ≠ 15 := by rintro rfl; change 15 = _ at hj; omega
      rw [if_neg hunused, if_neg hlimits, if_neg (by omega), store_stream p w v hj, word_stream _ w hj, getV_setV_same]
      exact stream_store_same _ w v
    · exact BitVec.and_zero.symm
  · rcases item_cases item with rfl | ⟨i, hi⟩ | ⟨j, hj⟩ | rfl
    · exact limits_store_other p v hne
    · rw [store_region p w v hi, word_region _ u hi, word_region _ u hi, getV_setV_same]
      exact region_store_other _ v hne
    · rw [store_stream p w v hj, word_stream _ u hj, word_stream _ u hj, getV_setV_same]
      exact stream_store_other _ v hne
    · rfl

end Sys2Proof.Machine
end

section
/-! SUPPORT. An event record that joins, that is dropped, and that leaves (R180, R181). -/

namespace Sys2Proof.Machine

/-- Below 32 a record joins the end of the queue. -/
theorem push_joins {m : ManagementPort} (e : Event) (h : m.events.length < 32) :
    m.push e = { m with events := m.events ++ [e] } := if_pos h

/-- At 32 a record is dropped and counted, saturating at 255. -/
theorem push_drops {m : ManagementPort} (e : Event) (h : 32 ≤ m.events.length) :
    m.push e = { m with lost := BitVec.ofNat 8 (min (m.lost.toNat + 1) 255) } := by
  unfold ManagementPort.push
  rw [if_neg (by omega)]
  split
  next hfull =>
    have hsame : BitVec.ofNat 8 (min (m.lost.toNat + 1) 255) = m.lost := by rw [hfull]; rfl
    rw [hsame]
  next hroom =>
    have hlt := m.lost.isLt
    have hne : m.lost.toNat ≠ 255 := fun h => hroom (BitVec.eq_of_toNat_eq h)
    have hnext : m.lost + 1 = BitVec.ofNat 8 (min (m.lost.toNat + 1) 255) := by
      rw [Nat.min_eq_left (by omega), BitVec.ofNat_add, BitVec.ofNat_toNat, BitVec.setWidth_eq]
      rfl
    rw [hnext]

theorem popEvent_of_cons {s : State} {e : Event} {rest : List Event} (h : s.mgmt.events = e :: rest) : s.popEvent = { s with
    mgmt := { s.mgmt with events := rest, latch1 := e.word1, latch2 := e.word2, latch3 := e.word3 }
    out := { s.out with shifted := some e.word0 } } := by
  simp only [State.popEvent, State.popCaptured, State.withMgmt, State.headWords, readRegister_event0, h, List.head?_cons,
    Option.map_some, Option.elim_some, List.tail_cons]

theorem popEvent_of_nil {s : State} (h : s.mgmt.events = []) : s.popEvent = { s with
    mgmt := { s.mgmt with latch1 := 0, latch2 := 0, latch3 := 0 }
    out := { s.out with shifted := some 0 } } := by
  simp only [State.popEvent, State.popCaptured, State.withMgmt, State.headWords, readRegister_event0, h, List.head?_nil,
    Option.map_none, Option.elim_none]

/-- EVENT_POP with a record queued: the oldest leaves (R180). -/
theorem eventPop_leads_of_cons {s : State} {e : Event} {rest : List Event} (hlive : Live s) (h : s.mgmt.events = e :: rest) :
    Leads .eventPop s fun t => t.out = { responses := [], issued := none, shifted := some e.word0 } ∧ Becomes t { s with
      mgmt := { s.mgmt with events := rest, latch1 := e.word1, latch2 := e.word2, latch3 := e.word3 } } := by
  refine event_leads (f := State.popEvent) rfl hlive (by simp) fun t hout ht => ?_
  rw [popEvent_of_cons (s := s.clearOut) h] at hout ht
  exact ⟨hout, ht⟩

theorem eventPop_leads_of_nil {s : State} (hlive : Live s) (h : s.mgmt.events = []) :
    Leads .eventPop s fun t => t.out = { responses := [], issued := none, shifted := some 0 } ∧ Becomes t { s with
      mgmt := { s.mgmt with latch1 := 0, latch2 := 0, latch3 := 0 } } := by
  refine event_leads (f := State.popEvent) rfl hlive (by simp) fun t hout ht => ?_
  rw [popEvent_of_nil (s := s.clearOut) h] at hout ht
  exact ⟨hout, ht⟩

/-! ### Writes of the INT enables and of lost-clear -/

theorem intEnableWrite_leads {s : State} (v : Word) (hlive : Live s) : Leads (.intEnableWrite v) s fun t =>
    t.out = Outputs.none ∧ Becomes t { s with mgmt := { s.mgmt with intEnable := v.setWidth 8 } } :=
  event_leads (f := (State.writeIntEnable · v)) rfl hlive rfl fun _ hout ht => ⟨hout, ht⟩

theorem lostClear_leads {s : State} (hlive : Live s) : Leads .lostClear s fun t =>
    t.out = Outputs.none ∧ Becomes t { s with mgmt := { s.mgmt with lost := 0 } } :=
  event_leads (f := State.clearLost) rfl hlive rfl fun _ hout ht => ⟨hout, ht⟩

/-- The management port's record after an event known with its frame. -/
theorem Becomes.mgmt_eq {t u : State} (h : Becomes t u) : t.mgmt = u.mgmt := by
  obtain ⟨-, -, -, -, -, -, -, -, -, -, -, -, -, -, hmgmt, -⟩ := h.fields
  exact hmgmt

/-- What the next state meets, weakened. -/
theorem Leads.mono {c : Instr} {s : State} {P Q : State → Prop} (h : Leads c s P) (hPQ : ∀ t, P t → Q t) : Leads c s Q := by
  obtain ⟨t, hnext, ht⟩ := h
  exact ⟨t, hnext, hPQ t ht⟩

end Sys2Proof.Machine
end

section
/-! INT follows the enabled kinds (O50). -/

namespace Sys2Proof.Machine

/-- INT is asserted exactly while a queued record's kind is enabled (R182). -/
theorem intPin_iff (s : State) :
    s.intPin = true ↔ ∃ e ∈ s.mgmt.events, s.mgmt.intEnable.getLsbD (e.kind - 1) = true := List.any_eq_true

theorem kind_bounds (e : Event) : 1 ≤ e.kind ∧ e.kind ≤ 8 := by
  cases e
  all_goals
    simp only [Event.kind]
    omega

/-- Bit k − 1 of the written word enables event kind k. -/
theorem enables_kind (v : Word) (e : Event) : (v.setWidth 8).getLsbD (e.kind - 1) = v.getLsbD (e.kind - 1) := by
  obtain ⟨hpos, hle⟩ := kind_bounds e
  rw [BitVec.getLsbD_setWidth, decide_eq_true (by omega), Bool.true_and]

theorem intPin_push_drops {s : State} (e : Event) (h : 32 ≤ s.mgmt.events.length) :
    State.intPin { s with mgmt := s.mgmt.push e } = s.intPin := by
  rw [push_drops e h]
  rfl

theorem intPin_push_joins {s : State} (e : Event) (h : s.mgmt.events.length < 32) :
    State.intPin { s with mgmt := s.mgmt.push e } = (s.intPin || s.mgmt.intEnable.getLsbD (e.kind - 1)) := by
  rw [push_joins e h]
  change (s.mgmt.events ++ [e]).any s.enabledKind = (s.mgmt.events.any s.enabledKind || s.enabledKind e)
  rw [List.any_append, List.any_cons, List.any_nil, Bool.or_false]

/-- Settles O50: the pin as an equivalence, then a write to the enables, a dropped record, one that joins, and a pop. -/
theorem intFollowsTheEnabledKinds : Obligations.IntFollowsTheEnabledKinds := by
  unfold Obligations.IntFollowsTheEnabledKinds
  refine ⟨intPin_iff, kind_bounds, fun s v hlive => ?_, fun _ => intPin_push_drops, fun _ => intPin_push_joins,
    fun s first e rest hlive hevents he henabled => ⟨?_, ?_⟩⟩
  · refine (intEnableWrite_leads v hlive).mono fun t ⟨_, ht⟩ => ?_
    rw [intPin_iff, ht.mgmt_eq]
    simp only [enables_kind, true_and]
  · exact (intPin_iff s).2 ⟨e, hevents ▸ List.mem_cons_of_mem first he, henabled⟩
  · refine (eventPop_leads_of_cons hlive hevents).mono fun t ⟨_, ht⟩ => ?_
    rw [intPin_iff, ht.mgmt_eq]
    exact ⟨e, he, henabled⟩

end Sys2Proof.Machine
end

section
/-! A full event queue drops and counts (O51). -/

namespace Sys2Proof.Machine

/-- After a run of events the queue holds at most 32 records, and the lost count has risen by those dropped (R181). -/
theorem foldl_push (es : List Event) {m : ManagementPort} (h : m.events.length ≤ 32) :
    (es.foldl ManagementPort.push m).events.length = min 32 (m.events.length + es.length)
      ∧ (es.foldl ManagementPort.push m).lost.toNat = min 255 (m.lost.toNat + (m.events.length + es.length - 32)) := by
  induction es generalizing m with
  | nil =>
    have hlt := m.lost.isLt
    simp only [List.foldl_nil, List.length_nil]
    omega
  | cons e es ih =>
    rw [List.foldl_cons, List.length_cons]
    by_cases hroom : m.events.length < 32
    · obtain ⟨hlength, hlost⟩ := ih (m := m.push e) (push_bound e h)
      rw [hlength, hlost, push_joins e hroom]
      simp only [List.length_append, List.length_singleton]
      omega
    · obtain ⟨hlength, hlost⟩ := ih (m := m.push e) (push_bound e h)
      rw [hlength, hlost, push_drops e (by omega)]
      simp only [BitVec.toNat_ofNat]
      omega

/-- A drop and a pop in either order (R181). -/
theorem drop_and_pop {m : ManagementPort} {first : Event} (e : Event) {rest : List Event} (hevents : m.events = first :: rest)
    (hfull : m.events.length = 32) : ManagementPort.push { m with events := rest } e = { m with events := rest ++ [e] }
      ∧ { m.push e with events := (m.push e).events.tail }
        = { m with events := rest, lost := BitVec.ofNat 8 (min (m.lost.toNat + 1) 255) } := by
  have hrest : rest.length < 32 := by
    rw [hevents, List.length_cons] at hfull
    omega
  refine ⟨push_joins (m := { m with events := rest }) e hrest, ?_⟩
  rw [push_drops e hfull.ge]
  simp only [hevents, List.tail_cons]

/-- A drop after a clear counts 1 (R181). -/
theorem drop_after_clear {m : ManagementPort} (e : Event) (hfull : m.events.length = 32) :
    (ManagementPort.push { m with lost := 0 } e).lost = 1 := by
  rw [push_drops (m := { m with lost := 0 }) e hfull.ge]
  rfl

/-- Settles O51: a record that joins or is dropped, lost-clear, the event status register, the two orders, and a run of events. -/
theorem fullQueueCountsLostEvents : Obligations.FullQueueCountsLostEvents := by
  unfold Obligations.FullQueueCountsLostEvents
  refine ⟨fun m e => ⟨push_joins e, push_drops e⟩, fun s hlive => ?_, fun s => rfl, fun m first e rest hevents hfull => ?_,
    fun m es h hlost => ?_⟩
  · refine (lostClear_leads hlive).mono fun t ⟨_, ht⟩ => ?_
    rw [ht.mgmt_eq]
    exact ⟨rfl, rfl⟩
  · obtain ⟨hpopped, hdropped⟩ := drop_and_pop e hevents hfull
    exact ⟨hpopped, hdropped, drop_after_clear e hfull⟩
  · obtain ⟨hlength, hcount⟩ := foldl_push es h
    have hzero : m.lost.toNat = 0 := congrArg BitVec.toNat hlost
    rw [hzero, Nat.zero_add] at hcount
    exact ⟨hlength, hcount⟩

end Sys2Proof.Machine
end

section
/-! Frames of the management port act (O48). -/

namespace Sys2Proof.Machine

/-! ### The registers that a write frame names (R176, R187) -/

theorem writeRegister_arg (s : State) (i : Fin 4) (v : Word) :
    s.writeRegister (BitVec.ofNat 6 (3 + i.val)) v = s.writeArg i v := by
  match i with
  | 0 | 1 | 2 | 3 => rfl

theorem writeRegister_profileData (s : State) (w : Fin 4) (v : Word) :
    s.writeRegister (BitVec.ofNat 6 (0x17 + w.val)) v = s.writeProfileData w v := by
  match w with
  | 0 | 1 | 2 | 3 => rfl

/-- The event status register acts on lost-clear alone, bit 31. -/
theorem writeRegister_eventStatus (s : State) (v : Word) :
    s.writeRegister 0x08 v = if v.getLsbD 31 then s.clearLost else s := rfl

/-- Read-only and unused registers ignore a write frame. -/
theorem writeRegister_ignored {n : BitVec 6} (h : n.toNat ∈ [0x00, 0x01, 0x07, 0x09, 0x0A, 0x0B, 0x0C, 0x0E, 0x0F, 0x10, 0x11,
    0x12, 0x13, 0x14, 0x15, 0x1B, 0x1C] ∨ 0x1D ≤ n.toNat) (s : State) (v : Word) : s.writeRegister n v = s := by
  simp only [List.mem_cons, List.not_mem_nil, or_false] at h
  unfold State.writeRegister
  split
  rotate_right
  · rfl
  all_goals omega

/-! ### Write frames -/

/-- A whole write frame acts as an event with the effect of its register. -/
theorem exec_writeFrame {n : BitVec 6} {v : Word} {f : State → State} (h : ∀ t : State, t.writeRegister n v = f t) (s : State) :
    exec (.registerWrite (.write n) v) s = happen s true f := by
  rw [← funext h]
  rfl

/-- A whole write frame that leaves the ports as they are. -/
theorem writeFrame_leads {s u : State} {n : BitVec 6} {v : Word} {P : State → Prop} (hlive : Live s)
    (hu : s.clearOut.writeRegister n v = u) (hports : u.ports = s.ports) (hP : ∀ t, t.out = u.out → Becomes t u → P t) :
    Leads (.registerWrite (.write n) v) s P := by
  subst hu
  exact event_leads (f := (State.writeRegister · n v)) rfl hlive hports hP

/-- A write frame that its register ignores. -/
theorem writeFrame_ignored_leads {s : State} {n : BitVec 6} {v : Word} (hlive : Live s)
    (hu : s.clearOut.writeRegister n v = s.clearOut) :
    Leads (.registerWrite (.write n) v) s fun t => t.out = Outputs.none ∧ Becomes t s :=
  writeFrame_leads hlive hu rfl fun _ hout ht => ⟨hout, ht⟩

/-- A write to a profile data word is stored into the staging profile, or ignored with the active copy selected (R176). -/
theorem profileDataWrite_leads {s : State} (w : Fin 4) (v : Word) (hlive : Live s) :
    Leads (.profileDataWrite w v) s fun t => t.out = Outputs.none
      ∧ (s.mgmt.selectActive = false → Becomes t { s with
          engine := { s.engine with staging := s.engine.staging.store s.mgmt.selectItem w v } })
      ∧ (s.mgmt.selectActive = true → Becomes t s) := by
  refine event_leads (f := (State.writeProfileData · w v)) rfl hlive (by simp) fun t hout ht => ?_
  cases hselect : s.mgmt.selectActive
  · have hstored : s.clearOut.writeProfileData w v = { s.clearOut with
        engine := { s.engine with staging := s.engine.staging.store s.mgmt.selectItem w v } } := if_neg (by simp [hselect])
    rw [hstored] at hout ht
    exact ⟨hout, fun _ => ht, nofun⟩
  · have hignored : s.clearOut.writeProfileData w v = s.clearOut := if_pos hselect
    rw [hignored] at hout ht
    exact ⟨hout, nofun, fun _ => ht⟩

/-- A known code written acts as the row of its command (R177). -/
theorem exec_unknownCommand_known {code : Byte} {c : Instr} (h : (code, c) ∈ [(1#8, Instr.quiesce), (2#8, .resume),
    (3#8, .discardOpen), (4#8, .clearFault), (5#8, .restart), (6#8, .format), (7#8, .digest), (8#8, .abortDigest),
    (9#8, .stageFromActive)]) (s : State) : exec (.unknownCommand code) s = exec c s := by
  simp only [List.mem_cons, Prod.mk.injEq, List.not_mem_nil, or_false] at h
  obtain ⟨rfl, rfl⟩ | ⟨rfl, rfl⟩ | ⟨rfl, rfl⟩ | ⟨rfl, rfl⟩ | ⟨rfl, rfl⟩ | ⟨rfl, rfl⟩ | ⟨rfl, rfl⟩ | ⟨rfl, rfl⟩ | ⟨rfl, rfl⟩ := h
  all_goals rfl

/-- A write to the command register is UNKNOWN_COMMAND of its code. -/
theorem exec_write_command (s : State) (v : Word) :
    exec (.registerWrite (.write 0x02) v) s = exec (.unknownCommand (v.setWidth 8)) s := rfl

/-- Settles O48: the pop with and without a record, and the write frames register by register. -/
theorem managementFramesAct : Obligations.ManagementFramesAct := by
  unfold Obligations.ManagementFramesAct
  refine ⟨fun s hlive => ⟨fun e rest hevents => eventPop_leads_of_cons hlive hevents, eventPop_leads_of_nil hlive⟩,
    fun s v hlive => ⟨intEnableWrite_leads v hlive, lostClear_leads hlive, fun w => profileDataWrite_leads w v hlive,
      fun i => ?arg, ?select, fun n hn => ?ignored, rfl, fun w => ?profileData, fun hclear => ?clear, fun hclear => ?noClear,
      fun code c hc hv => ?known, fun _ => exec_write_command s v⟩⟩
  case arg => exact writeFrame_leads hlive (writeRegister_arg s.clearOut i v) rfl fun _ hout ht => ⟨hout, ht⟩
  case select => exact writeFrame_leads (n := 0x16) (u := s.clearOut.writeSelect v) hlive rfl rfl fun _ hout ht => ⟨hout, ht⟩
  case ignored => exact writeFrame_ignored_leads hlive (writeRegister_ignored hn s.clearOut v)
  case profileData => exact exec_writeFrame (f := (State.writeProfileData · w v)) (writeRegister_profileData · w v) s
  case clear => exact exec_writeFrame (f := State.clearLost) (fun t => (writeRegister_eventStatus t v).trans (if_pos hclear)) s
  case noClear =>
    have hkeep : ¬ v.getLsbD 31 = true := by rw [hclear]; exact Bool.false_ne_true
    exact writeFrame_ignored_leads hlive ((writeRegister_eventStatus s.clearOut v).trans (if_neg hkeep))
  case known => rw [exec_write_command, hv, exec_unknownCommand_known hc]

end Sys2Proof.Machine
end

section
/-! SUPPORT. The bits of a frame (R175). -/

namespace Sys2Proof

/-- The first `k` bits of `v`, most significant first, after the number `n`. -/
theorem foldl_getMsbD {w : Nat} (v : BitVec w) (n k : Nat) (hk : k ≤ w) :
    ((List.range k).map v.getMsbD).foldl (fun n b => 2 * n + b.toNat) n = n * 2 ^ k + v.toNat / 2 ^ (w - k) := by
  induction k with
  | zero => simp [Nat.div_eq_of_lt v.isLt]
  | succ k ih =>
    have hplace : w - k = (w - (k + 1)) + 1 := by omega
    have hbit : (v.getMsbD k).toNat = v.toNat / 2 ^ (w - (k + 1)) % 2 := by
      rw [BitVec.getMsbD, decide_eq_true (by omega), Bool.true_and, BitVec.getLsbD, Nat.toNat_testBit, Nat.sub_sub, Nat.add_comm 1 k]
    rw [List.range_succ, List.map_append, List.foldl_append, ih (by omega), List.map_singleton, List.foldl_cons, List.foldl_nil,
      hbit, hplace, Nat.pow_succ 2 (w - (k + 1)), ← Nat.div_div_eq_div_mul, Nat.pow_succ 2 k, ← Nat.mul_assoc]
    omega

/-- The bits of a word, after the number `n`. -/
theorem foldl_allBits {w : Nat} (v : BitVec w) (n : Nat) :
    ((List.range w).map v.getMsbD).foldl (fun n b => 2 * n + b.toNat) n = n * 2 ^ w + v.toNat := by
  rw [foldl_getMsbD v n w le_rfl, Nat.sub_self, Nat.pow_zero, Nat.div_one]

section
variable (read ignored : Bool) (number : BitVec 6) (data : Word)

theorem length_frameBits : (frameBits read ignored number data).length = 40 := by
  simp [frameBits]

/-- The command byte of a frame: bit 7 read or write, bit 6 ignored, then the number. -/
theorem frameCommand_frameBits :
    (frameCommand (frameBits read ignored number data)).toNat = 128 * read.toNat + 64 * ignored.toNat + number.toNat := by
  have hread := read.toNat_le
  have hignored := ignored.toNat_le
  have hnumber := number.isLt
  have htake : (frameBits read ignored number data).take 8 = read :: ignored :: (List.range 6).map number.getMsbD :=
    List.take_left' (by simp)
  rw [frameCommand, htake, bitsNat, List.foldl_cons, List.foldl_cons, foldl_allBits, BitVec.toNat_ofNat]
  omega

theorem frameHead_frameBits :
    frameHead (frameCommand (frameBits read ignored number data)) = { read := read, number := number } := by
  have hcommand := frameCommand_frameBits read ignored number data
  have hignored := ignored.toNat_le
  have hlt := number.isLt
  have hread : (frameCommand (frameBits read ignored number data)).getLsbD 7 = read := by
    rw [BitVec.getLsbD, Nat.testBit_eq_decide_div_mod_eq, hcommand]
    cases read
    · exact decide_eq_false (by simp only [Bool.toNat_false]; omega)
    · exact decide_eq_true (by simp only [Bool.toNat_true]; omega)
  have hnumber : (frameCommand (frameBits read ignored number data)).setWidth 6 = number := by
    apply BitVec.eq_of_toNat_eq
    rw [BitVec.toNat_setWidth, hcommand]
    omega
  rw [frameHead, hread, hnumber]

theorem frameData_frameBits : frameData (frameBits read ignored number data) = data := by
  have hdrop : (frameBits read ignored number data).drop 8 = (List.range 32).map data.getMsbD := List.drop_left' (by simp)
  rw [frameData, hdrop, List.take_of_length_le (by simp), bitsNat, foldl_allBits, Nat.zero_mul, Nat.zero_add,
    BitVec.ofNat_toNat, BitVec.setWidth_eq]

end

end Sys2Proof
end

section
/-! Frames clocked bit by bit (O60). -/

namespace Sys2Proof.Machine

/-! ### One bit clocked in (R175) -/

/-- The part shifts out this bit. -/
def State.shifting (s : State) (b : Option Bool) : State := { s with out := { s.out with miso := b } }

/-- The frame with one more bit. -/
def Frame.next (f : Frame) (b : Bool) : Frame := { f with bits := f.bits ++ [b] }

theorem length_next (f : Frame) (b : Bool) : (f.next b).bits.length = f.bits.length + 1 := by
  rw [Frame.next, List.length_append, List.length_singleton]

@[simp] theorem shifting_ports (s : State) (b : Option Bool) : (s.shifting b).ports = s.ports := rfl

theorem shiftedBit_of_lt {f : Frame} (h : f.bits.length < 40) :
    f.shiftedBit = f.sampled.map fun v => v.getMsbD (f.bits.length - 8) := if_neg (by omega)

theorem clockInto_complete {s : State} {f : Frame} (b : Bool) (h : 40 ≤ f.bits.length) :
    s.clockInto f b = s.shifting (some false) := by
  have hshifted : f.shiftedBit = some false := if_pos h
  rw [← hshifted]
  exact if_pos h

theorem clockInto_between {s : State} {f : Frame} (b : Bool) (hlt : f.bits.length < 40) (hhead : f.bits.length ≠ 7)
    (hlast : f.bits.length ≠ 39) : s.clockInto f b = (s.shifting f.shiftedBit).withFrame (some (f.next b)) := by
  have hlength := length_next f b
  exact (if_neg (by omega)).trans ((if_neg (by change (f.next b).bits.length ≠ 8; omega)).trans
    (if_neg (by change (f.next b).bits.length ≠ 40; omega)))

theorem clockInto_eighth {s : State} {f : Frame} (b : Bool) (h : f.bits.length = 7) :
    s.clockInto f b = (s.shifting f.shiftedBit).sampleFrame (f.next b) := by
  have hlength := length_next f b
  exact (if_neg (by omega)).trans (if_pos (by change (f.next b).bits.length = 8; omega))

theorem clockInto_fortieth {s : State} {f : Frame} (b : Bool) (h : f.bits.length = 39) :
    s.clockInto f b = ((s.shifting f.shiftedBit).withFrame (some (f.next b))).completeFrame (f.next b) := by
  have hlength := length_next f b
  exact (if_neg (by omega)).trans ((if_neg (by change (f.next b).bits.length ≠ 8; omega)).trans
    (if_pos (by change (f.next b).bits.length = 40; omega)))

theorem linkEvent_clock {s : State} {f : Frame} (v : Word) (h : s.mgmt.frame = some f) :
    s.linkEvent v .clock = s.clockInto f (v.getLsbD 0) := by
  rw [State.linkEvent, h, Option.elim_some]

theorem linkEvent_clock_ignored {s : State} (v : Word) (h : s.mgmt.frame = none) : s.linkEvent v .clock = s := by
  rw [State.linkEvent, h, Option.elim_none]

/-- A clock with a frame in progress, whose effect is known. -/
theorem clock_leads {s u : State} {f : Frame} {v : Word} {P : State → Prop} (hlive : Live s) (hframe : s.mgmt.frame = some f)
    (hu : s.clearOut.clockInto f (v.getLsbD 0) = u) (hports : u.ports = s.ports)
    (hP : ∀ t, t.out = u.out → Becomes t u → P t) : Leads (.registerWrite .clock v) s P := by
  have hclock : s.clearOut.linkEvent v .clock = u := (linkEvent_clock (s := s.clearOut) v hframe).trans hu
  refine event_leads (f := (State.linkEvent · v .clock)) rfl hlive ?_ fun t hout ht => ?_
  · rw [hclock, hports]
  · rw [hclock] at hout ht
    exact hP t hout ht

/-! ### The eighth and the fortieth bit (R175, R176, R180) -/

theorem sampleFrame_write {s : State} {f : Frame} (h : (frameHead (frameCommand f.bits)).read = false) :
    s.sampleFrame f = s.withFrame (some f) := if_neg (by rw [h]; exact Bool.false_ne_true)

/-- The frame of a read that has sampled its register. -/
def State.sampledFrame (s : State) (f : Frame) : Frame := { f with
  sampled := some (s.readRegister (frameHead (frameCommand f.bits)).number)
  captured := if (frameHead (frameCommand f.bits)).number = 0x09 then s.headWords else none }

theorem sampledFrame_other {s : State} {f : Frame} (h : (frameHead (frameCommand f.bits)).number ≠ 0x09) : s.sampledFrame f
    = { f with sampled := some (s.readRegister (frameHead (frameCommand f.bits)).number), captured := none } := by
  rw [State.sampledFrame, if_neg h]

theorem sampledFrame_event0_of_cons {s : State} {f : Frame} {e : Event} {rest : List Event}
    (h : (frameHead (frameCommand f.bits)).number = 0x09) (hevents : s.mgmt.events = e :: rest) :
    s.sampledFrame f = { f with sampled := some e.word0
                                captured := some { word1 := e.word1, word2 := e.word2, word3 := e.word3 } } := by
  rw [State.sampledFrame, if_pos h, h, readRegister_event0, State.headWords, hevents]
  rfl

theorem sampledFrame_event0_of_nil {s : State} {f : Frame} (h : (frameHead (frameCommand f.bits)).number = 0x09)
    (hevents : s.mgmt.events = []) : s.sampledFrame f = { f with sampled := some 0, captured := none } := by
  rw [State.sampledFrame, if_pos h, h, readRegister_event0, State.headWords, hevents]
  rfl

/-- A sample of the command register uses up a free value, of which `Becomes` does not speak. -/
theorem sampleFrame_read {s : State} {f : Frame} (h : (frameHead (frameCommand f.bits)).read = true) :
    Becomes (s.sampleFrame f) (s.withFrame (some (s.sampledFrame f))) := by
  have hsampled : s.sampleFrame f = if (frameHead (frameCommand f.bits)).number = 0x02
      then { s.withFrame (some (s.sampledFrame f)) with freeCount := s.freeCount + 1 }
      else s.withFrame (some (s.sampledFrame f)) := if_pos h
  rw [hsampled]
  split
  · exact Becomes.refl _
  · exact Becomes.refl _

theorem completeFrame_write {s : State} {f : Frame} (h : (frameHead (frameCommand f.bits)).read = false) :
    s.completeFrame f = s.writeRegister (frameHead (frameCommand f.bits)).number (frameData f.bits) :=
  if_pos (by rw [h]; rfl)

theorem completeFrame_event0 {s : State} {f : Frame} (h : (frameHead (frameCommand f.bits)).read = true)
    (hnumber : (frameHead (frameCommand f.bits)).number = 0x09) : s.completeFrame f = s.popCaptured f.captured :=
  (if_neg (by rw [h]; exact Bool.false_ne_true)).trans (if_pos hnumber)

theorem completeFrame_otherRead {s : State} {f : Frame} (h : (frameHead (frameCommand f.bits)).read = true)
    (hnumber : (frameHead (frameCommand f.bits)).number ≠ 0x09) : s.completeFrame f = s :=
  (if_neg (by rw [h]; exact Bool.false_ne_true)).trans (if_neg hnumber)

/-! ### Each clock of a frame -/

section
variable {s : State} {f : Frame} {v : Word} (hlive : Live s) (hframe : s.mgmt.frame = some f)
include hlive hframe

/-- Bits after the fifth byte are ignored, with zeros shifted out. -/
theorem clock_leads_complete (h : 40 ≤ f.bits.length) : Leads (.registerWrite .clock v) s fun t =>
    t.out = { Outputs.none with miso := some false } ∧ Becomes t s :=
  clock_leads hlive hframe (clockInto_complete _ h) rfl fun _ hout ht => ⟨hout, ht⟩

/-- A bit that completes neither the command byte nor the frame joins it. -/
theorem clock_leads_between (hlt : f.bits.length < 40) (hhead : f.bits.length ≠ 7) (hlast : f.bits.length ≠ 39) :
    Leads (.registerWrite .clock v) s fun t =>
      t.out = { Outputs.none with miso := f.sampled.map fun v => v.getMsbD (f.bits.length - 8) }
      ∧ Becomes t (s.withFrame (some (f.next (v.getLsbD 0)))) := by
  refine clock_leads hlive hframe (clockInto_between _ hlt hhead hlast) rfl fun t hout ht => ⟨?_, ht⟩
  rw [hout, shiftedBit_of_lt hlt]
  rfl

/-- The eighth bit of a write frame joins it. -/
theorem clock_leads_writeHead (h : f.bits.length = 7) (hsampled : f.sampled = none)
    (hread : (frameHead (frameCommand (f.next (v.getLsbD 0)).bits)).read = false) :
    Leads (.registerWrite .clock v) s fun t =>
      t.out = Outputs.none ∧ Becomes t (s.withFrame (some (f.next (v.getLsbD 0)))) := by
  have hshifted : f.shiftedBit = none := by rw [shiftedBit_of_lt (by omega), hsampled, Option.map_none]
  refine clock_leads hlive hframe ((clockInto_eighth _ h).trans (sampleFrame_write hread)) rfl fun t hout ht => ⟨?_, ht⟩
  rw [hout, hshifted]
  rfl

/-- The eighth bit of a read frame samples its register. -/
theorem clock_leads_sample (h : f.bits.length = 7) (hsampled : f.sampled = none)
    (hread : (frameHead (frameCommand (f.next (v.getLsbD 0)).bits)).read = true) :
    Leads (.registerWrite .clock v) s fun t =>
      t.out = Outputs.none ∧ Becomes t (s.withFrame (some (s.sampledFrame (f.next (v.getLsbD 0))))) := by
  have hshifted : f.shiftedBit = none := by rw [shiftedBit_of_lt (by omega), hsampled, Option.map_none]
  refine clock_leads hlive hframe (clockInto_eighth _ h) (by simp) fun t hout ht => ⟨?_, ht.trans (sampleFrame_read hread)⟩
  have hkeeps : ((s.clearOut.shifting none).sampleFrame (f.next (v.getLsbD 0))).out = (s.clearOut.shifting none).out := by simp
  rw [hout, hshifted]
  exact hkeeps

/-- The fortieth bit completes the frame. -/
theorem clock_leads_last {u : State} (h : f.bits.length = 39)
    (hu : ((s.clearOut.shifting f.shiftedBit).withFrame (some (f.next (v.getLsbD 0)))).completeFrame (f.next (v.getLsbD 0)) = u)
    (hports : u.ports = s.ports) (hout : u.out = { Outputs.none with miso := f.shiftedBit }) :
    Leads (.registerWrite .clock v) s fun t => t.out = { Outputs.none with miso := f.shiftedBit } ∧ Becomes t u :=
  clock_leads hlive hframe ((clockInto_fortieth _ h).trans hu) hports fun _ htout ht => ⟨htout.trans hout, ht⟩

/-- The fortieth bit of a write frame acts as the whole write frame. -/
theorem exec_clock_write (h : f.bits.length = 39) (hsampled : f.sampled = none)
    (hread : (frameHead (frameCommand (f.next (v.getLsbD 0)).bits)).read = false) :
    exec (.registerWrite .clock v) s
      = exec (.registerWrite (.write (frameHead (frameCommand (f.next (v.getLsbD 0)).bits)).number)
          (frameData (f.next (v.getLsbD 0)).bits)) (s.withFrame (some (f.next (v.getLsbD 0)))) := by
  have hshifted : f.shiftedBit = none := by rw [shiftedBit_of_lt (by omega), hsampled, Option.map_none]
  have hclock : s.clearOut.linkEvent v .clock = (s.withFrame (some (f.next (v.getLsbD 0)))).clearOut.writeRegister
      (frameHead (frameCommand (f.next (v.getLsbD 0)).bits)).number (frameData (f.next (v.getLsbD 0)).bits) := by
    rw [linkEvent_clock (s := s.clearOut) v hframe, clockInto_fortieth _ h, completeFrame_write hread, hshifted]
    rfl
  have hleft : exec (.registerWrite .clock v) s = .next (s.clearOut.linkEvent v .clock).finish :=
    happen_next (f := (State.linkEvent · v .clock)) hlive.1 rfl
  rw [hleft, hclock]
  exact (happen_next (s := s.withFrame (some (f.next (v.getLsbD 0)))) (f := (State.writeRegister · _ _)) hlive.1 rfl).symm

end

/-- Settles O60: the bits of a frame; no frame after a reset; selecting, deselecting and a clock without a frame; then each clock
of a frame by the number of its bits. -/
theorem framesAreClockedBitByBit : Obligations.FramesAreClockedBitByBit := by
  unfold Obligations.FramesAreClockedBitByBit
  refine ⟨fun read ignored n v => ⟨length_frameBits read ignored n v, frameHead_frameBits read ignored n v,
    frameData_frameBits read ignored n v⟩, fun s abase => ⟨s.resetTo abase, rfl, rfl⟩, fun s hlive => ⟨fun hframe v => ?select,
    fun v => ?deselect, fun v hframe => ?noFrame, fun f mosi hframe => ⟨fun h => ?complete, fun hlt hhead hlast => ?between,
    fun h hread hsampled => ?writeHead, fun h hread hsampled => ?sample, fun h hread hsampled => ?write,
    fun v h hread hsampled => ?read⟩⟩⟩
  case select =>
    have hselect : s.clearOut.linkEvent v .select
        = s.clearOut.withFrame (some { bits := [], sampled := none, captured := none }) := by
      have hnone : s.clearOut.mgmt.frame = none := hframe
      rw [State.linkEvent, hnone, Option.getD_none]
    refine event_leads (f := (State.linkEvent · v .select)) rfl hlive (by rw [hselect]; rfl) fun t hout ht => ?_
    rw [hselect] at hout ht
    exact ⟨hout, ht⟩
  case deselect => exact event_leads (f := (State.linkEvent · v .deselect)) rfl hlive rfl fun t hout ht => ⟨hout, ht⟩
  case noFrame =>
    have hclock : s.clearOut.linkEvent v .clock = s.clearOut := linkEvent_clock_ignored v hframe
    refine event_leads (f := (State.linkEvent · v .clock)) rfl hlive (by rw [hclock]; rfl) fun t hout ht => ?_
    rw [hclock] at hout ht
    exact ⟨hout, ht⟩
  case complete => exact clock_leads_complete hlive hframe h
  case between => exact clock_leads_between hlive hframe hlt hhead hlast
  case writeHead => exact clock_leads_writeHead hlive hframe h hsampled hread
  case sample =>
    refine (clock_leads_sample hlive hframe h hsampled hread).mono fun t ⟨hout, ht⟩ => ⟨hout, fun hnumber => ?_,
      fun e rest hnumber hevents => ?_, fun hnumber hevents => ?_⟩
    · rwa [sampledFrame_other (f := f.next (mosi.getLsbD 0)) hnumber] at ht
    · rwa [sampledFrame_event0_of_cons (f := f.next (mosi.getLsbD 0)) hnumber hevents] at ht
    · rwa [sampledFrame_event0_of_nil (f := f.next (mosi.getLsbD 0)) hnumber hevents] at ht
  case write => exact exec_clock_write hlive hframe h hsampled hread
  case read =>
    have hshifted : f.shiftedBit = some (v.getLsbD 0) := by
      rw [shiftedBit_of_lt (by omega), hsampled, h]
      rfl
    by_cases hnumber : (frameHead (frameCommand (f.next (mosi.getLsbD 0)).bits)).number = 0x09
    · refine (clock_leads_last hlive hframe h (completeFrame_event0 hread hnumber) rfl rfl).mono
        fun t ⟨hout, ht⟩ => ⟨hout.trans (by rw [hshifted]), fun hother => absurd hnumber hother, fun c _ hcaptured => ?_,
          fun _ hcaptured => ?_⟩
      · have hwords : (f.next (mosi.getLsbD 0)).captured = some c := hcaptured
        rwa [hwords] at ht
      · have hwords : (f.next (mosi.getLsbD 0)).captured = none := hcaptured
        rwa [hwords] at ht
    · exact (clock_leads_last hlive hframe h (completeFrame_otherRead hread hnumber) rfl rfl).mono fun t ⟨hout, ht⟩ =>
        ⟨hout.trans (by rw [hshifted]), fun _ => ht, fun _ h09 => absurd h09 hnumber, fun h09 => absurd h09 hnumber⟩

end Sys2Proof.Machine
end
